-- ==== Sys2Proof/Word.lean ====
section
/-! DEFINITION. The machine's word types: bytes and 16-bit addresses (00_scope.md R14, R15). -/

namespace Sys2Proof

/-- A byte: the width of every data register and of every memory access (R14, R17). -/
abbrev Byte := BitVec 8

/-- A 16-bit address: the width of PC and of the one address space (R14, R200). -/
abbrev Addr := BitVec 16

end Sys2Proof
end

