-- ==== Sys2Proof/Machine/Alu.lean ====
section
/-! DEFINITION. The arithmetic of the ALU over bytes (41_alu_single.md R502, R503). No operation takes or gives a carry. -/

namespace Sys2Proof.Machine

/-- 8-bit circular rotation left: bit 7 enters bit 0 (R502). -/
def rol8 (v : Byte) : Byte := (v <<< 1) ||| (v >>> 7)

/-- 8-bit circular rotation right: bit 0 enters bit 7 (R502). -/
def ror8 (v : Byte) : Byte := (v >>> 1) ||| (v <<< 7)

/-- Addition modulo 2^8 (R503). -/
def add8 (a b : Byte) : Byte := a + b

/-- Subtraction modulo 2^8 (R503). -/
def sub8 (a b : Byte) : Byte := a - b

end Sys2Proof.Machine
end

