-- ==== Sys2Proof/Syntax.lean ====
section
/-! DEFINITION. The instruction set: one constructor per mnemonic of spec/opcode_table.json (30_encoding.md R313).
The 150 rows that share the mnemonic UNMAPPED are one constructor, which carries the opcode byte (log 10). -/

namespace Sys2Proof

/-- The general registers, in the order of their indices 0 to 3 (10_state.md R102, R103). -/
inductive Reg where
  | A | B | X | Y
deriving DecidableEq, Repr

/-- The instruction formats: implied, immediate and absolute (30_encoding.md R300). -/
inductive Format where
  | I | M | W
deriving DecidableEq, Repr

/-- Instruction length in bytes (R300, R316). -/
def Format.length : Format → Nat
  | .I => 1
  | .M => 2
  | .W => 3

/-- The instructions. -/
inductive Instr where
  -- Control and flag clear (40_control.md)
  /-- `NOP`, opcode 0x00 (R400). -/
  | nop
  /-- `RST`, opcode 0x01 (R401). -/
  | rst
  /-- `HLT`, opcode 0x02 (R402). -/
  | hlt
  /-- `BRK`, opcode 0x03 (R403). -/
  | brk
  /-- `CTN`, opcode 0x04 (R404). -/
  | ctn
  /-- `CLC`, opcode 0x05 (R405). -/
  | clc
  /-- `CLN`, opcode 0x06 (R406). -/
  | cln
  /-- `CLZ`, opcode 0x07 (R407). -/
  | clz
  /-- `CLV`, opcode 0x08 (R408). -/
  | clv
  -- Single-register ALU (41_alu_single.md)
  /-- `ROL A`, opcode 0x10 (R510). -/
  | rolA
  /-- `ROR A`, opcode 0x11 (R511). -/
  | rorA
  /-- `ADI A, #imm8`, opcode 0x12 (R512). -/
  | adiA (imm : Byte)
  /-- `SBI A, #imm8`, opcode 0x13 (R513). -/
  | sbiA (imm : Byte)
  /-- `ROL B`, opcode 0x14 (R514). -/
  | rolB
  /-- `ROR B`, opcode 0x15 (R515). -/
  | rorB
  /-- `ADI B, #imm8`, opcode 0x16 (R516). -/
  | adiB (imm : Byte)
  /-- `SBI B, #imm8`, opcode 0x17 (R517). -/
  | sbiB (imm : Byte)
  /-- `ROL X`, opcode 0x18 (R518). -/
  | rolX
  /-- `ROR X`, opcode 0x19 (R519). -/
  | rorX
  /-- `ADI X, #imm8`, opcode 0x1A (R520). -/
  | adiX (imm : Byte)
  /-- `SBI X, #imm8`, opcode 0x1B (R521). -/
  | sbiX (imm : Byte)
  /-- `ROL Y`, opcode 0x1C (R522). -/
  | rolY
  /-- `ROR Y`, opcode 0x1D (R523). -/
  | rorY
  /-- `ADI Y, #imm8`, opcode 0x1E (R524). -/
  | adiY (imm : Byte)
  /-- `SBI Y, #imm8`, opcode 0x1F (R525). -/
  | sbiY (imm : Byte)
  /-- `INC A`, opcode 0x20 (R530). -/
  | incA
  /-- `DEC A`, opcode 0x21 (R531). -/
  | decA
  /-- `INC B`, opcode 0x24 (R532). -/
  | incB
  /-- `DEC B`, opcode 0x25 (R533). -/
  | decB
  /-- `INC X`, opcode 0x28 (R534). -/
  | incX
  /-- `DEC X`, opcode 0x29 (R535). -/
  | decX
  /-- `INC Y`, opcode 0x2C (R536). -/
  | incY
  /-- `DEC Y`, opcode 0x2D (R537). -/
  | decY
  -- Stack reads (42_stack_read.md)
  /-- `POP A`, opcode 0x30 (R610). -/
  | popA
  /-- `PEEK A`, opcode 0x31 (R611). -/
  | peekA
  /-- `POP B`, opcode 0x34 (R612). -/
  | popB
  /-- `PEEK B`, opcode 0x35 (R613). -/
  | peekB
  /-- `POP X`, opcode 0x38 (R614). -/
  | popX
  /-- `PEEK X`, opcode 0x39 (R615). -/
  | peekX
  /-- `POP Y`, opcode 0x3C (R616). -/
  | popY
  /-- `PEEK Y`, opcode 0x3D (R617). -/
  | peekY
  -- Indirect stores (43_store_indirect.md)
  /-- `STI A`, opcode 0x40 (R710). -/
  | stiA
  /-- `STI B`, opcode 0x41 (R711). -/
  | stiB
  -- Register moves (44_move.md), destination named first
  /-- `MOV B, A`, opcode 0x61 (R810). -/
  | movBA
  /-- `MOV X, A`, opcode 0x62 (R811). -/
  | movXA
  /-- `MOV Y, A`, opcode 0x63 (R812). -/
  | movYA
  /-- `MOV A, B`, opcode 0x64 (R813). -/
  | movAB
  /-- `MOV X, B`, opcode 0x66 (R814). -/
  | movXB
  /-- `MOV Y, B`, opcode 0x67 (R815). -/
  | movYB
  /-- `MOV A, X`, opcode 0x68 (R816). -/
  | movAX
  /-- `MOV B, X`, opcode 0x69 (R817). -/
  | movBX
  /-- `MOV Y, X`, opcode 0x6B (R818). -/
  | movYX
  /-- `MOV A, Y`, opcode 0x6C (R819). -/
  | movAY
  /-- `MOV B, Y`, opcode 0x6D (R820). -/
  | movBY
  /-- `MOV X, Y`, opcode 0x6E (R821). -/
  | movXY
  -- Control transfers (45_control_transfer.md)
  /-- `JMP addr16`, opcode 0x70 (R910). -/
  | jmp (addr : Addr)
  /-- `JSR addr16`, opcode 0x71 (R911). -/
  | jsr (addr : Addr)
  /-- `RET`, opcode 0x72 (R912). -/
  | ret
  /-- `JSE addr16`, opcode 0x73 (R913). -/
  | jse (addr : Addr)
  /-- `JSN addr16`, opcode 0x74 (R914). -/
  | jsn (addr : Addr)
  /-- `BNE addr16`, opcode 0x75 (R915). -/
  | bne (addr : Addr)
  /-- `BEQ addr16`, opcode 0x76 (R916). -/
  | beq (addr : Addr)
  -- Pairwise add and subtract (46_alu_pairwise.md), destination named first
  /-- `ADD A, A`, opcode 0x80 (R1010). -/
  | addAA
  /-- `ADD A, B`, opcode 0x81 (R1011). -/
  | addAB
  /-- `ADD A, X`, opcode 0x82 (R1012). -/
  | addAX
  /-- `ADD A, Y`, opcode 0x83 (R1013). -/
  | addAY
  /-- `ADD B, A`, opcode 0x84 (R1014). -/
  | addBA
  /-- `ADD B, B`, opcode 0x85 (R1015). -/
  | addBB
  /-- `ADD B, X`, opcode 0x86 (R1016). -/
  | addBX
  /-- `ADD B, Y`, opcode 0x87 (R1017). -/
  | addBY
  /-- `ADD X, A`, opcode 0x88 (R1018). -/
  | addXA
  /-- `ADD X, B`, opcode 0x89 (R1019). -/
  | addXB
  /-- `ADD X, X`, opcode 0x8A (R1020). -/
  | addXX
  /-- `ADD X, Y`, opcode 0x8B (R1021). -/
  | addXY
  /-- `ADD Y, A`, opcode 0x8C (R1022). -/
  | addYA
  /-- `ADD Y, B`, opcode 0x8D (R1023). -/
  | addYB
  /-- `ADD Y, X`, opcode 0x8E (R1024). -/
  | addYX
  /-- `ADD Y, Y`, opcode 0x8F (R1025). -/
  | addYY
  /-- `SUB A, A`, opcode 0x90 (R1030). -/
  | subAA
  /-- `SUB A, B`, opcode 0x91 (R1031). -/
  | subAB
  /-- `SUB A, X`, opcode 0x92 (R1032). -/
  | subAX
  /-- `SUB A, Y`, opcode 0x93 (R1033). -/
  | subAY
  /-- `SUB B, A`, opcode 0x94 (R1034). -/
  | subBA
  /-- `SUB B, B`, opcode 0x95 (R1035). -/
  | subBB
  /-- `SUB B, X`, opcode 0x96 (R1036). -/
  | subBX
  /-- `SUB B, Y`, opcode 0x97 (R1037). -/
  | subBY
  /-- `SUB X, A`, opcode 0x98 (R1038). -/
  | subXA
  /-- `SUB X, B`, opcode 0x99 (R1039). -/
  | subXB
  /-- `SUB X, X`, opcode 0x9A (R1040). -/
  | subXX
  /-- `SUB X, Y`, opcode 0x9B (R1041). -/
  | subXY
  /-- `SUB Y, A`, opcode 0x9C (R1042). -/
  | subYA
  /-- `SUB Y, B`, opcode 0x9D (R1043). -/
  | subYB
  /-- `SUB Y, X`, opcode 0x9E (R1044). -/
  | subYX
  /-- `SUB Y, Y`, opcode 0x9F (R1045). -/
  | subYY
  -- Stack pushes (47_stack_push.md)
  /-- `PUSH A`, opcode 0xB0 (R1110). -/
  | pushA
  /-- `PUSH B`, opcode 0xB1 (R1111). -/
  | pushB
  /-- `PUSH X`, opcode 0xB2 (R1112). -/
  | pushX
  /-- `PUSH Y`, opcode 0xB3 (R1113). -/
  | pushY
  -- Absolute stores (48_store_absolute.md)
  /-- `ST A, addr16`, opcode 0xC0 (R1210). -/
  | stA (addr : Addr)
  /-- `ST B, addr16`, opcode 0xC1 (R1211). -/
  | stB (addr : Addr)
  /-- `ST X, addr16`, opcode 0xC2 (R1212). -/
  | stX (addr : Addr)
  /-- `ST Y, addr16`, opcode 0xC3 (R1213). -/
  | stY (addr : Addr)
  -- Set flag (49_set_flag.md)
  /-- `SEZ A`, opcode 0xD0 (R1310). -/
  | sezA
  /-- `SEZ B`, opcode 0xD5 (R1311). -/
  | sezB
  /-- `SEZ X`, opcode 0xDA (R1312). -/
  | sezX
  /-- `SEZ Y`, opcode 0xDF (R1313). -/
  | sezY
  -- Unmapped opcodes (30_encoding.md R314)
  /-- Any of the 150 opcode bytes outside every family; executes as NOP (R314, R400). -/
  | unmapped (op : Byte)
deriving DecidableEq, Repr

/-- The format of an instruction (R300). -/
def Instr.format : Instr → Format
  | .nop | .rst | .hlt | .brk | .ctn | .clc | .cln | .clz
  | .clv | .rolA | .rorA | .rolB | .rorB | .rolX | .rorX | .rolY
  | .rorY | .incA | .decA | .incB | .decB | .incX | .decX | .incY
  | .decY | .popA | .peekA | .popB | .peekB | .popX | .peekX | .popY
  | .peekY | .stiA | .stiB | .movBA | .movXA | .movYA | .movAB | .movXB
  | .movYB | .movAX | .movBX | .movYX | .movAY | .movBY | .movXY | .ret
  | .addAA | .addAB | .addAX | .addAY | .addBA | .addBB | .addBX | .addBY
  | .addXA | .addXB | .addXX | .addXY | .addYA | .addYB | .addYX | .addYY
  | .subAA | .subAB | .subAX | .subAY | .subBA | .subBB | .subBX | .subBY
  | .subXA | .subXB | .subXX | .subXY | .subYA | .subYB | .subYX | .subYY
  | .pushA | .pushB | .pushX | .pushY | .sezA | .sezB | .sezX | .sezY => .I
  | .unmapped _ => .I
  | .adiA _ | .sbiA _ | .adiB _ | .sbiB _ | .adiX _ | .sbiX _ | .adiY _ | .sbiY _ => .M
  | .jmp _ | .jsr _ | .jse _ | .jsn _ | .bne _ | .beq _ | .stA _ | .stB _
  | .stX _ | .stY _ => .W

/-- Length of an instruction in bytes (R300, R316). -/
def Instr.length (i : Instr) : Nat := i.format.length

/-! The instructions of a family by their register fields, as the family rules lay them out. -/

/-- `ROL r` (R500). -/
def Instr.rol (r : Reg) : Instr :=
  match r with
  | .A => .rolA
  | .B => .rolB
  | .X => .rolX
  | .Y => .rolY

/-- `ROR r` (R500). -/
def Instr.ror (r : Reg) : Instr :=
  match r with
  | .A => .rorA
  | .B => .rorB
  | .X => .rorX
  | .Y => .rorY

/-- `ADI r, #imm` (R500). -/
def Instr.adi (r : Reg) (imm : Byte) : Instr :=
  match r with
  | .A => .adiA imm
  | .B => .adiB imm
  | .X => .adiX imm
  | .Y => .adiY imm

/-- `SBI r, #imm` (R500). -/
def Instr.sbi (r : Reg) (imm : Byte) : Instr :=
  match r with
  | .A => .sbiA imm
  | .B => .sbiB imm
  | .X => .sbiX imm
  | .Y => .sbiY imm

/-- `INC r` (R500). -/
def Instr.inc (r : Reg) : Instr :=
  match r with
  | .A => .incA
  | .B => .incB
  | .X => .incX
  | .Y => .incY

/-- `DEC r` (R500). -/
def Instr.dec (r : Reg) : Instr :=
  match r with
  | .A => .decA
  | .B => .decB
  | .X => .decX
  | .Y => .decY

/-- `POP r` (R600). -/
def Instr.pop (r : Reg) : Instr :=
  match r with
  | .A => .popA
  | .B => .popB
  | .X => .popX
  | .Y => .popY

/-- `PEEK r` (R600). -/
def Instr.peek (r : Reg) : Instr :=
  match r with
  | .A => .peekA
  | .B => .peekB
  | .X => .peekX
  | .Y => .peekY

/-- `PUSH r` (R1100). -/
def Instr.push (r : Reg) : Instr :=
  match r with
  | .A => .pushA
  | .B => .pushB
  | .X => .pushX
  | .Y => .pushY

/-- `ST r, addr` (R1200). -/
def Instr.st (r : Reg) (addr : Addr) : Instr :=
  match r with
  | .A => .stA addr
  | .B => .stB addr
  | .X => .stX addr
  | .Y => .stY addr

/-- `SEZ r` (R1300). -/
def Instr.sez (r : Reg) : Instr :=
  match r with
  | .A => .sezA
  | .B => .sezB
  | .X => .sezX
  | .Y => .sezY

/-- `ADD d, o` (R1000). -/
def Instr.add (d o : Reg) : Instr :=
  match d, o with
  | .A, .A => .addAA | .A, .B => .addAB | .A, .X => .addAX | .A, .Y => .addAY
  | .B, .A => .addBA | .B, .B => .addBB | .B, .X => .addBX | .B, .Y => .addBY
  | .X, .A => .addXA | .X, .B => .addXB | .X, .X => .addXX | .X, .Y => .addXY
  | .Y, .A => .addYA | .Y, .B => .addYB | .Y, .X => .addYX | .Y, .Y => .addYY

/-- `SUB d, o` (R1000). -/
def Instr.sub (d o : Reg) : Instr :=
  match d, o with
  | .A, .A => .subAA | .A, .B => .subAB | .A, .X => .subAX | .A, .Y => .subAY
  | .B, .A => .subBA | .B, .B => .subBB | .B, .X => .subBX | .B, .Y => .subBY
  | .X, .A => .subXA | .X, .B => .subXB | .X, .X => .subXX | .X, .Y => .subXY
  | .Y, .A => .subYA | .Y, .B => .subYB | .Y, .X => .subYX | .Y, .Y => .subYY

/-- `MOV d, s` (R800); the four codes with d = s are unmapped. -/
def Instr.mov (d s : Reg) : Instr :=
  match d, s with
  | .A, .A => .unmapped 0x60 | .A, .B => .movAB | .A, .X => .movAX | .A, .Y => .movAY
  | .B, .A => .movBA | .B, .B => .unmapped 0x65 | .B, .X => .movBX | .B, .Y => .movBY
  | .X, .A => .movXA | .X, .B => .movXB | .X, .X => .unmapped 0x6A | .X, .Y => .movXY
  | .Y, .A => .movYA | .Y, .B => .movYB | .Y, .X => .movYX | .Y, .Y => .unmapped 0x6F

end Sys2Proof
end

