-- ==== Sys2Proof/WellFormed.lean ====
section
/-! DEFINITION. Which instruction terms the encoding admits. Operands are bit vectors of their fields' widths, so the one
check left is that an unmapped instruction carries an unmapped opcode. -/

namespace Sys2Proof

/-- The ranges of unmapped opcodes, as 30_encoding.md R314 lists them. -/
def unmappedRanges : List (Nat × Nat) :=
  [(0x09, 0x0F), (0x22, 0x23), (0x26, 0x27), (0x2A, 0x2B), (0x2E, 0x2F), (0x32, 0x33),
   (0x36, 0x37), (0x3A, 0x3B), (0x3E, 0x3F), (0x42, 0x60), (0x65, 0x65), (0x6A, 0x6A),
   (0x6F, 0x6F), (0x77, 0x7F), (0xA0, 0xAF), (0xB4, 0xBF), (0xC4, 0xCF), (0xD1, 0xD4),
   (0xD6, 0xD9), (0xDB, 0xDE), (0xE0, 0xFF)]

/-- An opcode byte outside every family (R314). -/
def isUnmapped (op : Byte) : Bool :=
  unmappedRanges.any fun r => r.1 ≤ op.toNat && op.toNat ≤ r.2

/-- A well-formed instruction: `unmapped` carries a byte of R314's list; every other operand value is admitted. -/
def Instr.wf : Instr → Bool
  | .unmapped op => isUnmapped op
  | .nop | .rst | .hlt | .brk | .ctn | .clc | .cln | .clz
  | .clv | .rolA | .rorA | .rolB | .rorB | .rolX | .rorX | .rolY
  | .rorY | .incA | .decA | .incB | .decB | .incX | .decX | .incY
  | .decY | .popA | .peekA | .popB | .peekB | .popX | .peekX | .popY
  | .peekY | .stiA | .stiB | .movBA | .movXA | .movYA | .movAB | .movXB
  | .movYB | .movAX | .movBX | .movYX | .movAY | .movBY | .movXY | .ret
  | .addAA | .addAB | .addAX | .addAY | .addBA | .addBB | .addBX | .addBY
  | .addXA | .addXB | .addXX | .addXY | .addYA | .addYB | .addYX | .addYY
  | .subAA | .subAB | .subAX | .subAY | .subBA | .subBB | .subBX | .subBY
  | .subXA | .subXB | .subXX | .subXY | .subYA | .subYB | .subYX | .subYY
  | .pushA | .pushB | .pushX | .pushY | .sezA | .sezB | .sezX | .sezY => true
  | .adiA _ | .sbiA _ | .adiB _ | .sbiB _ | .adiX _ | .sbiX _ | .adiY _ | .sbiY _ => true
  | .jmp _ | .jsr _ | .jse _ | .jsn _ | .bne _ | .beq _ | .stA _ | .stB _
  | .stX _ | .stY _ => true

end Sys2Proof
end

