-- ==== Sys2Proof/Decode.lean ====
section
/-! DEFINITION. Decoding and encoding. The decoder follows the opcode map of 30_encoding.md R313 and R314; the encoder
follows the bit layouts of R309. The two are written from different tables of the spec, so that their agreement says
something about both. -/

namespace Sys2Proof

/-- `{hi, lo}`: the 16-bit concatenation of two bytes (00_scope.md R15, 30_encoding.md R311). -/
def joinBytes (hi lo : Byte) : Addr := hi ++ lo

/-- Bits 7:0 of an address. -/
def lowByte (a : Addr) : Byte := a.extractLsb' 0 8

/-- Bits 15:8 of an address. -/
def highByte (a : Addr) : Byte := a.extractLsb' 8 8

/-- The format an opcode byte selects; the opcode alone determines it (R300, R316). -/
def formatOf (op : Byte) : Format :=
  match op with
  | 0x12 | 0x13 | 0x16 | 0x17 | 0x1A | 0x1B | 0x1E | 0x1F => .M
  | 0x70 | 0x71 | 0x73 | 0x74 | 0x75 | 0x76 => .W
  | 0xC0 | 0xC1 | 0xC2 | 0xC3 => .W
  | _ => .I

/-- The opcode map (R313): the instruction of opcode `op`, with operand bytes `b1` and `b2` where its format has them.
An immediate is the byte as fetched (R310); an absolute address is low byte first (R311). Every byte outside the map is
an unmapped opcode (R314). -/
def instrOf (op b1 b2 : Byte) : Instr :=
  match op with
  | 0x00 => .nop
  | 0x01 => .rst
  | 0x02 => .hlt
  | 0x03 => .brk
  | 0x04 => .ctn
  | 0x05 => .clc
  | 0x06 => .cln
  | 0x07 => .clz
  | 0x08 => .clv
  | 0x10 => .rolA
  | 0x11 => .rorA
  | 0x12 => .adiA b1
  | 0x13 => .sbiA b1
  | 0x14 => .rolB
  | 0x15 => .rorB
  | 0x16 => .adiB b1
  | 0x17 => .sbiB b1
  | 0x18 => .rolX
  | 0x19 => .rorX
  | 0x1A => .adiX b1
  | 0x1B => .sbiX b1
  | 0x1C => .rolY
  | 0x1D => .rorY
  | 0x1E => .adiY b1
  | 0x1F => .sbiY b1
  | 0x20 => .incA
  | 0x21 => .decA
  | 0x24 => .incB
  | 0x25 => .decB
  | 0x28 => .incX
  | 0x29 => .decX
  | 0x2C => .incY
  | 0x2D => .decY
  | 0x30 => .popA
  | 0x31 => .peekA
  | 0x34 => .popB
  | 0x35 => .peekB
  | 0x38 => .popX
  | 0x39 => .peekX
  | 0x3C => .popY
  | 0x3D => .peekY
  | 0x40 => .stiA
  | 0x41 => .stiB
  | 0x61 => .movBA
  | 0x62 => .movXA
  | 0x63 => .movYA
  | 0x64 => .movAB
  | 0x66 => .movXB
  | 0x67 => .movYB
  | 0x68 => .movAX
  | 0x69 => .movBX
  | 0x6B => .movYX
  | 0x6C => .movAY
  | 0x6D => .movBY
  | 0x6E => .movXY
  | 0x70 => .jmp (joinBytes b2 b1)
  | 0x71 => .jsr (joinBytes b2 b1)
  | 0x72 => .ret
  | 0x73 => .jse (joinBytes b2 b1)
  | 0x74 => .jsn (joinBytes b2 b1)
  | 0x75 => .bne (joinBytes b2 b1)
  | 0x76 => .beq (joinBytes b2 b1)
  | 0x80 => .addAA
  | 0x81 => .addAB
  | 0x82 => .addAX
  | 0x83 => .addAY
  | 0x84 => .addBA
  | 0x85 => .addBB
  | 0x86 => .addBX
  | 0x87 => .addBY
  | 0x88 => .addXA
  | 0x89 => .addXB
  | 0x8A => .addXX
  | 0x8B => .addXY
  | 0x8C => .addYA
  | 0x8D => .addYB
  | 0x8E => .addYX
  | 0x8F => .addYY
  | 0x90 => .subAA
  | 0x91 => .subAB
  | 0x92 => .subAX
  | 0x93 => .subAY
  | 0x94 => .subBA
  | 0x95 => .subBB
  | 0x96 => .subBX
  | 0x97 => .subBY
  | 0x98 => .subXA
  | 0x99 => .subXB
  | 0x9A => .subXX
  | 0x9B => .subXY
  | 0x9C => .subYA
  | 0x9D => .subYB
  | 0x9E => .subYX
  | 0x9F => .subYY
  | 0xB0 => .pushA
  | 0xB1 => .pushB
  | 0xB2 => .pushX
  | 0xB3 => .pushY
  | 0xC0 => .stA (joinBytes b2 b1)
  | 0xC1 => .stB (joinBytes b2 b1)
  | 0xC2 => .stX (joinBytes b2 b1)
  | 0xC3 => .stY (joinBytes b2 b1)
  | 0xD0 => .sezA
  | 0xD5 => .sezB
  | 0xDA => .sezX
  | 0xDF => .sezY
  | _ => .unmapped op

/-- Why a byte string is no instruction. Raised by `decode` alone, never by a step, which fetches every byte it needs
(log 12). Safe. -/
inductive DecodeError where
  /-- The string is empty. -/
  | noOpcode
  /-- The string ends before the operand of an ADI or SBI. -/
  | noImmediate
  /-- The string ends before the second address byte of a format W instruction. -/
  | noAddress
deriving DecidableEq, Repr

/-- Decode the first instruction of a byte string: the instruction and the bytes after it. Total; the only strings it
rejects are those that end inside an instruction. -/
def decode (bytes : List Byte) : Except DecodeError (Instr × List Byte) :=
  match bytes with
  | [] => .error .noOpcode
  | op :: rest =>
    match formatOf op, rest with
    | .I, rest => .ok (instrOf op 0 0, rest)
    | .M, b1 :: rest => .ok (instrOf op b1 0, rest)
    | .M, [] => .error .noImmediate
    | .W, b1 :: b2 :: rest => .ok (instrOf op b1 b2, rest)
    | .W, _ => .error .noAddress

/-- A 2-bit register field (R308). -/
def regField (r : Reg) : BitVec 2 :=
  match r with
  | .A => 0b00
  | .B => 0b01
  | .X => 0b10
  | .Y => 0b11

/-- `0001 rrkk`: per-register rotate and immediate arithmetic (R309, R500). -/
def opRegOp (r : Reg) (kk : BitVec 2) : Byte := (0b0001#4 ++ regField r) ++ kk

/-- `0010 rr0k`: increment and decrement (R309, R500). -/
def opIncDec (r : Reg) (k : BitVec 1) : Byte := ((0b0010#4 ++ regField r) ++ 0b0#1) ++ k

/-- `0011 rr0k`: pop and peek (R309, R600). -/
def opStackRead (r : Reg) (k : BitVec 1) : Byte := ((0b0011#4 ++ regField r) ++ 0b0#1) ++ k

/-- `0110 ssdd`: move (R309, R800). -/
def opMove (d s : Reg) : Byte := (0b0110#4 ++ regField s) ++ regField d

/-- `100u ddoo`: pairwise add and subtract (R309, R1000). -/
def opPair (u : BitVec 1) (d o : Reg) : Byte := ((0b100#3 ++ u) ++ regField d) ++ regField o

/-- `1011 00rr`: push (R309, R1100). -/
def opPush (r : Reg) : Byte := 0b101100#6 ++ regField r

/-- `1100 00rr`: store absolute (R309, R1200). -/
def opStore (r : Reg) : Byte := 0b110000#6 ++ regField r

/-- `1101 rrrr` with the low nibble 5 x r (R309, R1300). -/
def opSetFlag (r : Reg) : Byte := (0b1101#4 ++ regField r) ++ regField r

/-- The opcode byte of an instruction, from the layouts of R309. -/
def opcodeOf (i : Instr) : Byte :=
  match i with
  | .nop => 0b0000#4 ++ 0x0#4
  | .rst => 0b0000#4 ++ 0x1#4
  | .hlt => 0b0000#4 ++ 0x2#4
  | .brk => 0b0000#4 ++ 0x3#4
  | .ctn => 0b0000#4 ++ 0x4#4
  | .clc => 0b0000#4 ++ 0x5#4
  | .cln => 0b0000#4 ++ 0x6#4
  | .clz => 0b0000#4 ++ 0x7#4
  | .clv => 0b0000#4 ++ 0x8#4
  | .rolA => opRegOp .A 0b00
  | .rorA => opRegOp .A 0b01
  | .adiA _ => opRegOp .A 0b10
  | .sbiA _ => opRegOp .A 0b11
  | .rolB => opRegOp .B 0b00
  | .rorB => opRegOp .B 0b01
  | .adiB _ => opRegOp .B 0b10
  | .sbiB _ => opRegOp .B 0b11
  | .rolX => opRegOp .X 0b00
  | .rorX => opRegOp .X 0b01
  | .adiX _ => opRegOp .X 0b10
  | .sbiX _ => opRegOp .X 0b11
  | .rolY => opRegOp .Y 0b00
  | .rorY => opRegOp .Y 0b01
  | .adiY _ => opRegOp .Y 0b10
  | .sbiY _ => opRegOp .Y 0b11
  | .incA => opIncDec .A 0b0
  | .decA => opIncDec .A 0b1
  | .incB => opIncDec .B 0b0
  | .decB => opIncDec .B 0b1
  | .incX => opIncDec .X 0b0
  | .decX => opIncDec .X 0b1
  | .incY => opIncDec .Y 0b0
  | .decY => opIncDec .Y 0b1
  | .popA => opStackRead .A 0b0
  | .peekA => opStackRead .A 0b1
  | .popB => opStackRead .B 0b0
  | .peekB => opStackRead .B 0b1
  | .popX => opStackRead .X 0b0
  | .peekX => opStackRead .X 0b1
  | .popY => opStackRead .Y 0b0
  | .peekY => opStackRead .Y 0b1
  | .stiA => 0b0100000#7 ++ 0b0#1
  | .stiB => 0b0100000#7 ++ 0b1#1
  | .movBA => opMove .B .A
  | .movXA => opMove .X .A
  | .movYA => opMove .Y .A
  | .movAB => opMove .A .B
  | .movXB => opMove .X .B
  | .movYB => opMove .Y .B
  | .movAX => opMove .A .X
  | .movBX => opMove .B .X
  | .movYX => opMove .Y .X
  | .movAY => opMove .A .Y
  | .movBY => opMove .B .Y
  | .movXY => opMove .X .Y
  | .jmp _ => 0b01110#5 ++ 0#3
  | .jsr _ => 0b01110#5 ++ 1#3
  | .ret => 0b01110#5 ++ 2#3
  | .jse _ => 0b01110#5 ++ 3#3
  | .jsn _ => 0b01110#5 ++ 4#3
  | .bne _ => 0b01110#5 ++ 5#3
  | .beq _ => 0b01110#5 ++ 6#3
  | .addAA => opPair 0b0 .A .A
  | .addAB => opPair 0b0 .A .B
  | .addAX => opPair 0b0 .A .X
  | .addAY => opPair 0b0 .A .Y
  | .addBA => opPair 0b0 .B .A
  | .addBB => opPair 0b0 .B .B
  | .addBX => opPair 0b0 .B .X
  | .addBY => opPair 0b0 .B .Y
  | .addXA => opPair 0b0 .X .A
  | .addXB => opPair 0b0 .X .B
  | .addXX => opPair 0b0 .X .X
  | .addXY => opPair 0b0 .X .Y
  | .addYA => opPair 0b0 .Y .A
  | .addYB => opPair 0b0 .Y .B
  | .addYX => opPair 0b0 .Y .X
  | .addYY => opPair 0b0 .Y .Y
  | .subAA => opPair 0b1 .A .A
  | .subAB => opPair 0b1 .A .B
  | .subAX => opPair 0b1 .A .X
  | .subAY => opPair 0b1 .A .Y
  | .subBA => opPair 0b1 .B .A
  | .subBB => opPair 0b1 .B .B
  | .subBX => opPair 0b1 .B .X
  | .subBY => opPair 0b1 .B .Y
  | .subXA => opPair 0b1 .X .A
  | .subXB => opPair 0b1 .X .B
  | .subXX => opPair 0b1 .X .X
  | .subXY => opPair 0b1 .X .Y
  | .subYA => opPair 0b1 .Y .A
  | .subYB => opPair 0b1 .Y .B
  | .subYX => opPair 0b1 .Y .X
  | .subYY => opPair 0b1 .Y .Y
  | .pushA => opPush .A
  | .pushB => opPush .B
  | .pushX => opPush .X
  | .pushY => opPush .Y
  | .stA _ => opStore .A
  | .stB _ => opStore .B
  | .stX _ => opStore .X
  | .stY _ => opStore .Y
  | .sezA => opSetFlag .A
  | .sezB => opSetFlag .B
  | .sezX => opSetFlag .X
  | .sezY => opSetFlag .Y
  | .unmapped op => op

/-- The operand bytes of an instruction, in the order they follow the opcode: an immediate as it is (R310), an address
low byte first (R311). -/
def operandBytes (i : Instr) : List Byte :=
  match i with
  | .adiA imm | .sbiA imm | .adiB imm | .sbiB imm | .adiX imm | .sbiX imm | .adiY imm | .sbiY imm => [imm]
  | .jmp addr | .jsr addr | .jse addr | .jsn addr | .bne addr | .beq addr | .stA addr | .stB addr
  | .stX addr | .stY addr => [lowByte addr, highByte addr]
  | .nop | .rst | .hlt | .brk | .ctn | .clc | .cln | .clz
  | .clv | .rolA | .rorA | .rolB | .rorB | .rolX | .rorX | .rolY
  | .rorY | .incA | .decA | .incB | .decB | .incX | .decX | .incY
  | .decY | .popA | .peekA | .popB | .peekB | .popX | .peekX | .popY
  | .peekY | .stiA | .stiB | .movBA | .movXA | .movYA | .movAB | .movXB
  | .movYB | .movAX | .movBX | .movYX | .movAY | .movBY | .movXY | .ret
  | .addAA | .addAB | .addAX | .addAY | .addBA | .addBB | .addBX | .addBY
  | .addXA | .addXB | .addXX | .addXY | .addYA | .addYB | .addYX | .addYY
  | .subAA | .subAB | .subAX | .subAY | .subBA | .subBB | .subBX | .subBY
  | .subXA | .subXB | .subXX | .subXY | .subYA | .subYB | .subYX | .subYY
  | .pushA | .pushB | .pushX | .pushY | .sezA | .sezB | .sezX | .sezY => []
  | .unmapped _ => []

/-- The bytes of an instruction, the opcode first (R300). -/
def encode (i : Instr) : List Byte := opcodeOf i :: operandBytes i

/-- The first three bytes of the table's word `w` of `nbits` bits: byte 0 is the opcode, every bit above `nbits` is 0
(log 12). -/
def tableBytes (nbits w : Nat) : List Byte :=
  [BitVec.ofNat 8 (w % 2 ^ nbits), BitVec.ofNat 8 (w % 2 ^ nbits / 2 ^ 8), BitVec.ofNat 8 (w % 2 ^ nbits / 2 ^ 16)]

/-- The instruction the decoder reads from the word `w` of `nbits` bits of spec/opcode_table.json. -/
def decodeTableWord (nbits w : Nat) : Option Instr :=
  match decode (tableBytes nbits w) with
  | .ok (i, _) => some i
  | .error _ => none

end Sys2Proof
end

