-- ==== Sys2Proof/Config.lean ====
section
/-! DEFINITION. The block's fixed parameters (00_scope.md R14), the events that cross its interface
(R10, R11, R13), and the free values: the bytes the spec leaves to the outside world. -/

namespace Sys2Proof

/-- What a step reports to the driver, in access order: device transactions (20_memory.md R207) and the one
reportable error (20_memory.md R206, 60_exceptions.md R1401). A port is identified by its address. -/
inductive Event where
  /-- The block read a device port and the Device answered `value`. -/
  | devRead (port : Addr) (value : Byte)
  /-- The block wrote `value` to a device port. -/
  | devWrite (port : Addr) (value : Byte)
  /-- A write to a ROM address, dropped. -/
  | readOnlyViolation (addr : Addr) (value : Byte)
deriving DecidableEq, Repr

namespace Config

/-- STACKBASE, the first address of the 256-byte stack window (R14, R113). -/
def stackBase : Nat := 0x7F00

/-- The number of RAM cells, 0x0000 to 0x7FFF (R14, R201). -/
def ramSize : Nat := 0x8000

/-- The RAM cells the Loader fills end before this address: the stack window keeps its reset value (R12, R1502). -/
def loaderRamSize : Nat := 0x7F00

/-- Values 0 to 254 of a page-select register name a bank; 0xFF names none (R14, R204, R205). -/
def banksPerPage : Nat := 255

/-- Bytes in one ROM bank (R14, R204). -/
def bankSize : Nat := 0x8000

/-- Bytes in all 255 x 255 banks. -/
def romSize : Nat := banksPerPage * banksPerPage * bankSize

/-- FREE VALUE (DESIGN CHOICE, log 3). The byte the Device answers to a read of `port` after `history`, when the
state's `deviceInput` holds no answer of its own (R207, D18, K8). No body: nothing constrains it. -/
opaque deviceAnswer (history : List Event) (port : Addr) : Byte

/-- FREE VALUE (DESIGN CHOICE, log 4). The byte the `draw`-th read of an absent ROM bank returns (R205, D15, K7).
No body: nothing constrains it. -/
opaque absentBankByte (draw : Nat) : Byte

end Config

end Sys2Proof
end

