-- ==== Sys2Proof/Machine/State.lean ====
section
/-! DEFINITION. The machine's state, why a step can stop, and the state after reset (10_state.md). -/

namespace Sys2Proof.Machine

/-- Sparse memory: cells with strictly rising addresses, none equal to what an unlisted address reads as. -/
abbrev Memory := List Host.Cell

/-- The two states of the Decoder/Executor (R128, R301). -/
inductive RunState where
  | running
  | halted
deriving DecidableEq, Repr

/-- The block's state (R100), then the ROM contents, which no step writes, then the model's own fields. -/
structure State where
  /-- General register A (R102). -/
  a : Byte
  /-- General register B (R102). -/
  b : Byte
  /-- General register X (R102). -/
  x : Byte
  /-- General register Y (R102). -/
  y : Byte
  /-- Flag register: bit 0 Z, bit 1 N, bit 2 C, bit 3 V, bits 7:4 reserved (R107). -/
  f : Byte
  /-- Stack pointer, an offset into the stack window (R113). -/
  sp : Byte
  /-- Instruction register, the most recently fetched opcode (R125). -/
  ir : Byte
  /-- Program counter (R105). -/
  pc : Addr
  /-- Low page-select register, at 0xFFFA (R126). -/
  mpL : Byte
  /-- High page-select register, at 0xFFFB (R126). -/
  mpH : Byte
  /-- RUNNING or HALTED (R128). -/
  run : RunState
  /-- RAM, keyed by address 0x0000 to 0x7FFF (20_memory.md R201). -/
  ram : Memory
  /-- ROM, keyed by bank and offset in one number (20_memory.md R204; log 6). The parameter `romImage` of R14. -/
  rom : Memory
  /-- The model's own: every event so far, in access order (00_scope.md R10, 70_reset_and_hazards.md R1505; log 2). -/
  trace : List Event
  /-- The model's own: the answers ready for the coming device reads (20_memory.md R207; log 3). -/
  deviceInput : List Byte
  /-- The model's own: how many reads of an absent ROM bank have drawn a free value (20_memory.md R205; log 4). -/
  draws : Nat
deriving DecidableEq, Repr

/-- Why a step faults: never. The block raises no exception and has no fatal condition (60_exceptions.md R1400,
30_encoding.md R306; log 9), so the type has no constructor. Safe. -/
inductive Fault where
deriving DecidableEq, Repr

/-- Why a step refuses. -/
inductive Refusal where
  /-- The instruction has no meaning in this model. No arm of `exec` raises it: every instruction has one (log 9). Safe. -/
  | notModelled (mnemonic : String)
deriving DecidableEq, Repr

/-- The outcome of a meaning. -/
abbrev Result := Host.Outcome State Fault Refusal

/-- The machine after reset with no image loaded (R130, R1500, R1501): every register zero, RUNNING at 0x0000, every RAM
and ROM cell 0x00. The Loader's image is `State.boot`. The last three fields are the model's own (logs 2, 3, 4). -/
def State.reset : State where
  a := 0
  b := 0
  x := 0
  y := 0
  f := 0
  sp := 0
  ir := 0
  pc := 0
  mpL := 0
  mpH := 0
  run := .running
  ram := []
  rom := []
  trace := []
  deviceInput := []
  draws := 0

end Sys2Proof.Machine
end

