-- ==== Sys2Proof/Machine/Ops.lean ====
section
/-! DEFINITION. The named operations over registers, memory, the address decoder and the stack (10_state.md, 20_memory.md).
The block has no exception to take and none to return from (60_exceptions.md R1404, R1405): what stands in their place is
the report of a dropped ROM write, an event that changes nothing else (`State.emit`, R1401). -/

namespace Sys2Proof.Machine

/-! ## Registers -/

/-- `R[r]`, read (00_scope.md R16). -/
def State.reg (s : State) (r : Reg) : Byte :=
  match r with
  | .A => s.a
  | .B => s.b
  | .X => s.x
  | .Y => s.y

/-- `R[r] <- v` (00_scope.md R16). -/
def State.setReg (s : State) (r : Reg) (v : Byte) : State :=
  match r with
  | .A => { s with a := v }
  | .B => { s with b := v }
  | .X => { s with x := v }
  | .Y => { s with y := v }

/-- `F <- v`. -/
def State.setF (s : State) (v : Byte) : State := { s with f := v }

/-- `SP <- v`. -/
def State.setSp (s : State) (v : Byte) : State := { s with sp := v }

/-- `IR <- v`. -/
def State.setIr (s : State) (v : Byte) : State := { s with ir := v }

/-- `PC <- v`. -/
def State.setPc (s : State) (v : Addr) : State := { s with pc := v }

/-- `mpL <- v`. -/
def State.setMpL (s : State) (v : Byte) : State := { s with mpL := v }

/-- `mpH <- v`. -/
def State.setMpH (s : State) (v : Byte) : State := { s with mpH := v }

/-- `run <- v`. -/
def State.setRun (s : State) (v : RunState) : State := { s with run := v }

/-- Replace the RAM contents. -/
def State.setRam (s : State) (m : Memory) : State := { s with ram := m }

/-- Replace the ROM contents; the Loader's alone. -/
def State.setRom (s : State) (m : Memory) : State := { s with rom := m }

/-- Append an event to what the driver sees (R11, R207). It changes no other state (R1401). -/
def State.emit (s : State) (e : Event) : State := { s with trace := s.trace ++ [e] }

/-- Set the answers ready for the coming device reads. -/
def State.setDeviceInput (s : State) (l : List Byte) : State := { s with deviceInput := l }

/-- Set the count of free bytes drawn from absent ROM banks. -/
def State.setDraws (s : State) (n : Nat) : State := { s with draws := n }

/-! ## Sparse memory -/

/-- What an unlisted address reads as: the Loader's default and the reset value of RAM (00_scope.md R12, R130; log 5). -/
def unlisted : Byte := 0x00

/-- The byte at an address. -/
def memGet : Memory → Nat → Byte
  | [], _ => unlisted
  | (k, v) :: m, i => if k = i then v else memGet m i

/-- Put a listed cell in its place. -/
def memInsert : Memory → Nat → Byte → Memory
  | [], i, v => [(i, v)]
  | (k, w) :: m, i, v =>
    if i < k then (i, v) :: (k, w) :: m
    else if i = k then (i, v) :: m
    else (k, w) :: memInsert m i v

/-- Store a byte. Writing what an unlisted address reads as removes the cell, so that equal contents are equal lists. -/
def memSet (m : Memory) (i : Nat) (v : Byte) : Memory :=
  if v = unlisted then m.filter (fun c => c.1 != i) else memInsert m i v

/-- The canonical form over addresses `lo` to `size - 1`. -/
def memWfFrom (lo size : Nat) : Memory → Bool
  | [] => true
  | (k, v) :: m => lo ≤ k && k < size && v != unlisted && memWfFrom (k + 1) size m

/-- The canonical form: addresses strictly rising and below `size`, no cell equal to `unlisted`. -/
def memWf (size : Nat) (m : Memory) : Bool := memWfFrom 0 size m

/-! ## The address decoder -/

/-- What an address selects (20_memory.md R202). -/
inductive Target where
  /-- A RAM cell. -/
  | ram
  /-- A cell of the ROM bank (mpH, mpL). -/
  | rom
  /-- One of the ten device ports. -/
  | device
  /-- The page-select register mpL. -/
  | pageLow
  /-- The page-select register mpH. -/
  | pageHigh
deriving DecidableEq, Repr

/-- The address map (20_memory.md R202): the first matching row. -/
def targetOf (addr : Addr) : Target :=
  if addr.toNat < 0x8000 then .ram
  else if addr.toNat < 0xFFF0 then .rom
  else if addr.toNat < 0xFFFA then .device
  else if addr.toNat = 0xFFFA then .pageLow
  else if addr.toNat = 0xFFFB then .pageHigh
  else .rom

/-- Bank (h, l) exists: both page values are at most 254 (20_memory.md R204, R205). -/
def bankPresent (h l : Byte) : Bool := h.toNat < Config.banksPerPage && l.toNat < Config.banksPerPage

/-- The key of bank (h, l) at offset `off` in the model's ROM list: distinct for distinct cells (R204; log 6). -/
def romIndex (h l : Byte) (off : Nat) : Nat := (h.toNat * Config.banksPerPage + l.toNat) * Config.bankSize + off

/-- The ROM key that an address of the window selects: bank (mpH, mpL), offset `addr - 0x8000` (20_memory.md R204). -/
def State.romKey (s : State) (addr : Addr) : Nat := romIndex s.mpH s.mpL (addr.toNat - 0x8000)

/-- `Device.read(port)` with its event (20_memory.md R207). The answer is the next one the outside world has ready, or
else a free value (D18, K8; log 3). -/
def State.deviceRead (s : State) (port : Addr) : Byte × State :=
  match s.deviceInput with
  | v :: rest => (v, (s.setDeviceInput rest).emit (.devRead port v))
  | [] =>
    let v := Config.deviceAnswer s.trace port
    (v, s.emit (.devRead port v))

/-- A read of the ROM window: the Loader's byte, or a fresh free value where no bank exists (20_memory.md R205; log 4). -/
def State.romRead (s : State) (addr : Addr) : Byte × State :=
  if bankPresent s.mpH s.mpL then (memGet s.rom (s.romKey addr), s)
  else (Config.absentBankByte s.draws, s.setDraws (s.draws + 1))

/-- `MemRead(addr, 1)`: the byte and the state after the access (20_memory.md R210). -/
def memRead (s : State) (addr : Addr) : Byte × State :=
  match targetOf addr with
  | .ram => (memGet s.ram addr.toNat, s)
  | .pageLow => (s.mpL, s)
  | .pageHigh => (s.mpH, s)
  | .device => s.deviceRead addr
  | .rom => s.romRead addr

/-- `MemWrite(addr, 1, v)` (20_memory.md R211). A ROM write is dropped and reported (R206). -/
def memWrite (s : State) (addr : Addr) (v : Byte) : State :=
  match targetOf addr with
  | .ram => s.setRam (memSet s.ram addr.toNat v)
  | .pageLow => s.setMpL v
  | .pageHigh => s.setMpH v
  | .device => s.emit (.devWrite addr v)
  | .rom => s.emit (.readOnlyViolation addr v)

/-! ## The stack -/

/-- `0x7F00 + SP`, always a RAM address (R113, R123). -/
def stackAddr (sp : Byte) : Nat := Config.stackBase + sp.toNat

/-- `Push(v)` (R120). -/
def push (s : State) (v : Byte) : State :=
  (s.setRam (memSet s.ram (stackAddr s.sp) v)).setSp (s.sp + 1)

/-- The byte `Pop()` returns (R121). -/
def popValue (s : State) : Byte := memGet s.ram (stackAddr (s.sp - 1))

/-- The state after `Pop()` (R121). -/
def popState (s : State) : State := s.setSp (s.sp - 1)

/-- The byte `Peek()` returns (R122). -/
def peekValue (s : State) : Byte := memGet s.ram (stackAddr s.sp)

/-! ## Subroutines -/

/-- `Call(target)`: push the return address, low byte first, and go to the target (45_control_transfer.md R901). PC is
already past the operand. -/
def call (s : State) (target : Addr) : State :=
  (push (push s (lowByte s.pc)) (highByte s.pc)).setPc target

/-- The address `Return()` goes to: the high byte is popped first (R901). -/
def returnTarget (s : State) : Addr := joinBytes (popValue s) (popValue (popState s))

/-- `Return()` (R901). -/
def ret (s : State) : State := (popState (popState s)).setPc (returnTarget s)

end Sys2Proof.Machine
end

