-- ==== Sys2Proof/Machine/Flags.lean ====
section
/-! DEFINITION. The flag register: reading, setting and clearing one bit, and the flag check (10_state.md R107 to R111,
41_alu_single.md R501). -/

namespace Sys2Proof.Machine

/-- `F[0]`, Z: the one bit any instruction reads (R107, R111). -/
def State.flagZ (s : State) : Bool := s.f.getLsbD 0

/-- `F[i] <- 0`. -/
def clearBit (f : Byte) (i : Nat) : Byte := f &&& ~~~(1#8 <<< i)

/-- `F[i] <- 1`. -/
def setBit (f : Byte) (i : Nat) : Byte := f ||| (1#8 <<< i)

/-- The flags after a result `v`: Z set and N clear if it is zero, else Z clear and N set; bits 7:2 kept (R501). -/
def checkedFlags (f v : Byte) : Byte :=
  if v = 0 then clearBit (setBit f 0) 1 else setBit (clearBit f 0) 1

/-- `FlagCheck(r)`, step 4 of the cycle (R501). -/
def flagCheck (r : Reg) (s : State) : State := s.setF (checkedFlags s.f (s.reg r))

/-- The result of an arithmetic or rotate instruction: write the destination, then run the flag check on it
(R501, R504, R505). -/
def aluResult (r : Reg) (v : Byte) (s : State) : State := flagCheck r (s.setReg r v)

end Sys2Proof.Machine
end

