-- ==== Sys2Proof/Machine/AluPairwise.lean ====
section
/-! DEFINITION. Pairwise addition and subtraction, 0x80 to 0x9F (46_alu_pairwise.md). Each ends with the flag check on its destination
(41_alu_single.md R505). -/

namespace Sys2Proof.Machine

/-- `d <- d + o`, with the flag check on `d`; the operands are read first (41_alu_single.md R504). -/
def addRegs (d o : Reg) (s : State) : State := aluResult d (add8 (s.reg d) (s.reg o)) s

/-- `d <- d - o`, with the flag check on `d`; the operands are read first (41_alu_single.md R504). -/
def subRegs (d o : Reg) (s : State) : State := aluResult d (sub8 (s.reg d) (s.reg o)) s

/-- `ADD A, A` (R1010). -/
def execAddAA (s : State) : Result := .next (addRegs .A .A s)

/-- `ADD A, B` (R1011). -/
def execAddAB (s : State) : Result := .next (addRegs .A .B s)

/-- `ADD A, X` (R1012). -/
def execAddAX (s : State) : Result := .next (addRegs .A .X s)

/-- `ADD A, Y` (R1013). -/
def execAddAY (s : State) : Result := .next (addRegs .A .Y s)

/-- `ADD B, A` (R1014). -/
def execAddBA (s : State) : Result := .next (addRegs .B .A s)

/-- `ADD B, B` (R1015). -/
def execAddBB (s : State) : Result := .next (addRegs .B .B s)

/-- `ADD B, X` (R1016). -/
def execAddBX (s : State) : Result := .next (addRegs .B .X s)

/-- `ADD B, Y` (R1017). -/
def execAddBY (s : State) : Result := .next (addRegs .B .Y s)

/-- `ADD X, A` (R1018). -/
def execAddXA (s : State) : Result := .next (addRegs .X .A s)

/-- `ADD X, B` (R1019). -/
def execAddXB (s : State) : Result := .next (addRegs .X .B s)

/-- `ADD X, X` (R1020). -/
def execAddXX (s : State) : Result := .next (addRegs .X .X s)

/-- `ADD X, Y` (R1021). -/
def execAddXY (s : State) : Result := .next (addRegs .X .Y s)

/-- `ADD Y, A` (R1022). -/
def execAddYA (s : State) : Result := .next (addRegs .Y .A s)

/-- `ADD Y, B` (R1023). -/
def execAddYB (s : State) : Result := .next (addRegs .Y .B s)

/-- `ADD Y, X` (R1024). -/
def execAddYX (s : State) : Result := .next (addRegs .Y .X s)

/-- `ADD Y, Y` (R1025). -/
def execAddYY (s : State) : Result := .next (addRegs .Y .Y s)

/-- `SUB A, A` (R1030). -/
def execSubAA (s : State) : Result := .next (subRegs .A .A s)

/-- `SUB A, B` (R1031). -/
def execSubAB (s : State) : Result := .next (subRegs .A .B s)

/-- `SUB A, X` (R1032). -/
def execSubAX (s : State) : Result := .next (subRegs .A .X s)

/-- `SUB A, Y` (R1033). -/
def execSubAY (s : State) : Result := .next (subRegs .A .Y s)

/-- `SUB B, A` (R1034). -/
def execSubBA (s : State) : Result := .next (subRegs .B .A s)

/-- `SUB B, B` (R1035). -/
def execSubBB (s : State) : Result := .next (subRegs .B .B s)

/-- `SUB B, X` (R1036). -/
def execSubBX (s : State) : Result := .next (subRegs .B .X s)

/-- `SUB B, Y` (R1037). -/
def execSubBY (s : State) : Result := .next (subRegs .B .Y s)

/-- `SUB X, A` (R1038). -/
def execSubXA (s : State) : Result := .next (subRegs .X .A s)

/-- `SUB X, B` (R1039). -/
def execSubXB (s : State) : Result := .next (subRegs .X .B s)

/-- `SUB X, X` (R1040). -/
def execSubXX (s : State) : Result := .next (subRegs .X .X s)

/-- `SUB X, Y` (R1041). -/
def execSubXY (s : State) : Result := .next (subRegs .X .Y s)

/-- `SUB Y, A` (R1042). -/
def execSubYA (s : State) : Result := .next (subRegs .Y .A s)

/-- `SUB Y, B` (R1043). -/
def execSubYB (s : State) : Result := .next (subRegs .Y .B s)

/-- `SUB Y, X` (R1044). -/
def execSubYX (s : State) : Result := .next (subRegs .Y .X s)

/-- `SUB Y, Y` (R1045). -/
def execSubYY (s : State) : Result := .next (subRegs .Y .Y s)

end Sys2Proof.Machine
end

