-- ==== Sys2Proof/Machine/AluSingle.lean ====
section
/-! DEFINITION. Rotates, immediate arithmetic, increment and decrement, 0x10 to 0x2D (41_alu_single.md). Each ends with the flag check
on its destination (R505). -/

namespace Sys2Proof.Machine

/-- Rotate `r` left, with the flag check (R510). -/
def rotateLeft (r : Reg) (s : State) : State := aluResult r (rol8 (s.reg r)) s

/-- Rotate `r` right, with the flag check (R511). -/
def rotateRight (r : Reg) (s : State) : State := aluResult r (ror8 (s.reg r)) s

/-- Add a byte to `r`, with the flag check (R512, R530). -/
def addByte (r : Reg) (v : Byte) (s : State) : State := aluResult r (add8 (s.reg r) v) s

/-- Subtract a byte from `r`, with the flag check (R513, R531). -/
def subByte (r : Reg) (v : Byte) (s : State) : State := aluResult r (sub8 (s.reg r) v) s

/-- `ROL A` (R510). -/
def execRolA (s : State) : Result := .next (rotateLeft .A s)

/-- `ROR A` (R511). -/
def execRorA (s : State) : Result := .next (rotateRight .A s)

/-- `ADI A, #imm8` (R512). -/
def execAdiA (imm : Byte) (s : State) : Result := .next (addByte .A imm s)

/-- `SBI A, #imm8` (R513). -/
def execSbiA (imm : Byte) (s : State) : Result := .next (subByte .A imm s)

/-- `ROL B` (R514). -/
def execRolB (s : State) : Result := .next (rotateLeft .B s)

/-- `ROR B` (R515). -/
def execRorB (s : State) : Result := .next (rotateRight .B s)

/-- `ADI B, #imm8` (R516). -/
def execAdiB (imm : Byte) (s : State) : Result := .next (addByte .B imm s)

/-- `SBI B, #imm8` (R517). -/
def execSbiB (imm : Byte) (s : State) : Result := .next (subByte .B imm s)

/-- `ROL X` (R518). -/
def execRolX (s : State) : Result := .next (rotateLeft .X s)

/-- `ROR X` (R519). -/
def execRorX (s : State) : Result := .next (rotateRight .X s)

/-- `ADI X, #imm8` (R520). -/
def execAdiX (imm : Byte) (s : State) : Result := .next (addByte .X imm s)

/-- `SBI X, #imm8` (R521). -/
def execSbiX (imm : Byte) (s : State) : Result := .next (subByte .X imm s)

/-- `ROL Y` (R522). -/
def execRolY (s : State) : Result := .next (rotateLeft .Y s)

/-- `ROR Y` (R523). -/
def execRorY (s : State) : Result := .next (rotateRight .Y s)

/-- `ADI Y, #imm8` (R524). -/
def execAdiY (imm : Byte) (s : State) : Result := .next (addByte .Y imm s)

/-- `SBI Y, #imm8` (R525). -/
def execSbiY (imm : Byte) (s : State) : Result := .next (subByte .Y imm s)

/-- `INC A` (R530). -/
def execIncA (s : State) : Result := .next (addByte .A 0x01 s)

/-- `DEC A` (R531). -/
def execDecA (s : State) : Result := .next (subByte .A 0x01 s)

/-- `INC B` (R532). -/
def execIncB (s : State) : Result := .next (addByte .B 0x01 s)

/-- `DEC B` (R533). -/
def execDecB (s : State) : Result := .next (subByte .B 0x01 s)

/-- `INC X` (R534). -/
def execIncX (s : State) : Result := .next (addByte .X 0x01 s)

/-- `DEC X` (R535). -/
def execDecX (s : State) : Result := .next (subByte .X 0x01 s)

/-- `INC Y` (R536). -/
def execIncY (s : State) : Result := .next (addByte .Y 0x01 s)

/-- `DEC Y` (R537). -/
def execDecY (s : State) : Result := .next (subByte .Y 0x01 s)

end Sys2Proof.Machine
end

