-- ==== Sys2Proof/Machine/Control.lean ====
section
/-! DEFINITION. Control and flag-clear instructions, 0x00 to 0x08 (40_control.md), and the unmapped opcodes (30_encoding.md R314). -/

namespace Sys2Proof.Machine

/-- `NOP`, no operation (R400). -/
def execNop (s : State) : Result := .next s

/-- `RST`, reserved: as NOP; it does not reset the block (R401). -/
def execRst (s : State) : Result := .next s

/-- `HLT`, halt: the only way to HALTED (R402). -/
def execHlt (s : State) : Result := .next (s.setRun .halted)

/-- `BRK`, reserved: as NOP; it does not trap (R403). -/
def execBrk (s : State) : Result := .next s

/-- `CTN`, reserved: as NOP (R404). -/
def execCtn (s : State) : Result := .next s

/-- `CLC`, clear bit 2 of F (R405). -/
def execClc (s : State) : Result := .next (s.setF (clearBit s.f 2))

/-- `CLN`, clear bit 1 of F (R406). -/
def execCln (s : State) : Result := .next (s.setF (clearBit s.f 1))

/-- `CLZ`, clear bit 0 of F (R407). -/
def execClz (s : State) : Result := .next (s.setF (clearBit s.f 0))

/-- `CLV`, clear bit 3 of F (R408). -/
def execClv (s : State) : Result := .next (s.setF (clearBit s.f 3))

/-- An unmapped opcode executes as NOP: IR, written by the fetch, is all that shows which (30_encoding.md R314, R400). -/
def execUnmapped (_op : Byte) (s : State) : Result := .next s

end Sys2Proof.Machine
end

