-- ==== Sys2Proof/Machine/Move.lean ====
section
/-! DEFINITION. Register moves, 0x61 to 0x6E (44_move.md). No flag (R800). -/

namespace Sys2Proof.Machine

/-- `R[d] <- R[s]`: the byte is copied as a value (R810). -/
def moveReg (d src : Reg) (s : State) : State := s.setReg d (s.reg src)

/-- `MOV B, A` (R810). -/
def execMovBA (s : State) : Result := .next (moveReg .B .A s)

/-- `MOV X, A` (R811). -/
def execMovXA (s : State) : Result := .next (moveReg .X .A s)

/-- `MOV Y, A` (R812). -/
def execMovYA (s : State) : Result := .next (moveReg .Y .A s)

/-- `MOV A, B` (R813). -/
def execMovAB (s : State) : Result := .next (moveReg .A .B s)

/-- `MOV X, B` (R814). -/
def execMovXB (s : State) : Result := .next (moveReg .X .B s)

/-- `MOV Y, B` (R815). -/
def execMovYB (s : State) : Result := .next (moveReg .Y .B s)

/-- `MOV A, X` (R816). -/
def execMovAX (s : State) : Result := .next (moveReg .A .X s)

/-- `MOV B, X` (R817). -/
def execMovBX (s : State) : Result := .next (moveReg .B .X s)

/-- `MOV Y, X` (R818). -/
def execMovYX (s : State) : Result := .next (moveReg .Y .X s)

/-- `MOV A, Y` (R819). -/
def execMovAY (s : State) : Result := .next (moveReg .A .Y s)

/-- `MOV B, Y` (R820). -/
def execMovBY (s : State) : Result := .next (moveReg .B .Y s)

/-- `MOV X, Y` (R821). -/
def execMovXY (s : State) : Result := .next (moveReg .X .Y s)

end Sys2Proof.Machine
end

