-- ==== Sys2Proof/Machine/SetFlag.lean ====
section
/-! DEFINITION. Set-flag instructions, 0xD0, 0xD5, 0xDA, 0xDF (49_set_flag.md). All four set bit 0 of F and nothing else (R1300);
the register only names the slot. -/

namespace Sys2Proof.Machine

/-- `SEZ A` (R1310). -/
def execSezA (s : State) : Result := .next (s.setF (setBit s.f 0))

/-- `SEZ B` (R1311). -/
def execSezB (s : State) : Result := .next (s.setF (setBit s.f 0))

/-- `SEZ X` (R1312). -/
def execSezX (s : State) : Result := .next (s.setF (setBit s.f 0))

/-- `SEZ Y` (R1313). -/
def execSezY (s : State) : Result := .next (s.setF (setBit s.f 0))

end Sys2Proof.Machine
end

