-- ==== Sys2Proof/Machine/StackPush.lean ====
section
/-! DEFINITION. Stack pushes, 0xB0 to 0xB3 (47_stack_push.md). No flag. -/

namespace Sys2Proof.Machine

/-- `PUSH A` (R1110). -/
def execPushA (s : State) : Result := .next (push s (s.reg .A))

/-- `PUSH B` (R1111). -/
def execPushB (s : State) : Result := .next (push s (s.reg .B))

/-- `PUSH X` (R1112). -/
def execPushX (s : State) : Result := .next (push s (s.reg .X))

/-- `PUSH Y` (R1113). -/
def execPushY (s : State) : Result := .next (push s (s.reg .Y))

end Sys2Proof.Machine
end

