-- ==== Sys2Proof/Machine/StackRead.lean ====
section
/-! DEFINITION. Stack reads, 0x30 to 0x3D (42_stack_read.md). The named register is written directly (R600, 10_state.md R124); no flag. -/

namespace Sys2Proof.Machine

/-- `R[r] <- Pop()` (R610). -/
def popInto (r : Reg) (s : State) : State := (popState s).setReg r (popValue s)

/-- `R[r] <- Peek()` (R611). -/
def peekInto (r : Reg) (s : State) : State := s.setReg r (peekValue s)

/-- `POP A` (R610). -/
def execPopA (s : State) : Result := .next (popInto .A s)

/-- `PEEK A` (R611). -/
def execPeekA (s : State) : Result := .next (peekInto .A s)

/-- `POP B` (R612). -/
def execPopB (s : State) : Result := .next (popInto .B s)

/-- `PEEK B` (R613). -/
def execPeekB (s : State) : Result := .next (peekInto .B s)

/-- `POP X` (R614). -/
def execPopX (s : State) : Result := .next (popInto .X s)

/-- `PEEK X` (R615). -/
def execPeekX (s : State) : Result := .next (peekInto .X s)

/-- `POP Y` (R616). -/
def execPopY (s : State) : Result := .next (popInto .Y s)

/-- `PEEK Y` (R617). -/
def execPeekY (s : State) : Result := .next (peekInto .Y s)

end Sys2Proof.Machine
end

