-- ==== Sys2Proof/Machine/StoreAbsolute.lean ====
section
/-! DEFINITION. Absolute stores, 0xC0 to 0xC3 (48_store_absolute.md), through the address decoder. No flag. -/

namespace Sys2Proof.Machine

/-- `ST A, addr16` (R1210). -/
def execStA (addr : Addr) (s : State) : Result := .next (memWrite s addr (s.reg .A))

/-- `ST B, addr16` (R1211). -/
def execStB (addr : Addr) (s : State) : Result := .next (memWrite s addr (s.reg .B))

/-- `ST X, addr16` (R1212). -/
def execStX (addr : Addr) (s : State) : Result := .next (memWrite s addr (s.reg .X))

/-- `ST Y, addr16` (R1213). -/
def execStY (addr : Addr) (s : State) : Result := .next (memWrite s addr (s.reg .Y))

end Sys2Proof.Machine
end

