-- ==== Sys2Proof/Machine/Operands.lean ====
section
/-! DEFINITION. The operand forms. A register operand is `State.reg`; an immediate (30_encoding.md R310) and an absolute
address (R311) stand in the instruction as decoded; the register-indirect address is here. -/

namespace Sys2Proof.Machine

/-- `{Y, X}`: X is the low byte, Y the high byte (30_encoding.md R312). -/
def State.indirectAddr (s : State) : Addr := joinBytes s.y s.x

end Sys2Proof.Machine
end

