-- ==== Sys2Proof/Machine/StoreIndirect.lean ====
section
/-! DEFINITION. Indirect stores, 0x40 and 0x41 (43_store_indirect.md), through the address decoder at {Y, X} (R700). -/

namespace Sys2Proof.Machine

/-- `STI A` (R710). -/
def execStiA (s : State) : Result := .next (memWrite s s.indirectAddr s.a)

/-- `STI B` (R711). -/
def execStiB (s : State) : Result := .next (memWrite s s.indirectAddr s.b)

end Sys2Proof.Machine
end

