-- ==== Sys2Proof/Machine/Transfer.lean ====
section
/-! DEFINITION. Control transfers, 0x70 to 0x76 (45_control_transfer.md). PC already points past the operand (R900); no flag is written. -/

namespace Sys2Proof.Machine

/-- Call the target if the condition holds; else nothing is left to do (R901, R902). -/
def callIf (c : Bool) (target : Addr) (s : State) : State := if c then call s target else s

/-- Go to the target if the condition holds; else nothing is left to do (R902). -/
def jumpIf (c : Bool) (target : Addr) (s : State) : State := if c then s.setPc target else s

/-- `JMP addr16`, jump (R910). -/
def execJmp (addr : Addr) (s : State) : Result := .next (s.setPc addr)

/-- `JSR addr16`, jump to subroutine (R911). -/
def execJsr (addr : Addr) (s : State) : Result := .next (call s addr)

/-- `RET`, return from subroutine (R912). -/
def execRet (s : State) : Result := .next (ret s)

/-- `JSE addr16`, call if Z = 1 (R913). -/
def execJse (addr : Addr) (s : State) : Result := .next (callIf s.flagZ addr s)

/-- `JSN addr16`, call if Z = 0 (R914). -/
def execJsn (addr : Addr) (s : State) : Result := .next (callIf (!s.flagZ) addr s)

/-- `BNE addr16`, branch if Z = 0 (R915). -/
def execBne (addr : Addr) (s : State) : Result := .next (jumpIf (!s.flagZ) addr s)

/-- `BEQ addr16`, branch if Z = 1 (R916). -/
def execBeq (addr : Addr) (s : State) : Result := .next (jumpIf s.flagZ addr s)

end Sys2Proof.Machine
end

