-- ==== Sys2Proof/Machine/Dispatch.lean ====
section
/-! DEFINITION. The dispatch: step 3 of the cycle, with step 4 for the flag-check opcodes (30_encoding.md R302). -/

namespace Sys2Proof.Machine

-- `s` is the state after the instruction's bytes are fetched: IR holds the opcode, PC is past the operand (log 1).
def exec (i : Instr) (s : State) : Host.Outcome State Fault Refusal :=
  match i with
  -- Control
  | .nop => Sys2Proof.Machine.execNop s
  | .rst => Sys2Proof.Machine.execRst s
  | .hlt => Sys2Proof.Machine.execHlt s
  | .brk => Sys2Proof.Machine.execBrk s
  | .ctn => Sys2Proof.Machine.execCtn s
  | .clc => Sys2Proof.Machine.execClc s
  | .cln => Sys2Proof.Machine.execCln s
  | .clz => Sys2Proof.Machine.execClz s
  | .clv => Sys2Proof.Machine.execClv s
  -- AluSingle
  | .rolA => Sys2Proof.Machine.execRolA s
  | .rorA => Sys2Proof.Machine.execRorA s
  | .adiA imm => Sys2Proof.Machine.execAdiA imm s
  | .sbiA imm => Sys2Proof.Machine.execSbiA imm s
  | .rolB => Sys2Proof.Machine.execRolB s
  | .rorB => Sys2Proof.Machine.execRorB s
  | .adiB imm => Sys2Proof.Machine.execAdiB imm s
  | .sbiB imm => Sys2Proof.Machine.execSbiB imm s
  | .rolX => Sys2Proof.Machine.execRolX s
  | .rorX => Sys2Proof.Machine.execRorX s
  | .adiX imm => Sys2Proof.Machine.execAdiX imm s
  | .sbiX imm => Sys2Proof.Machine.execSbiX imm s
  | .rolY => Sys2Proof.Machine.execRolY s
  | .rorY => Sys2Proof.Machine.execRorY s
  | .adiY imm => Sys2Proof.Machine.execAdiY imm s
  | .sbiY imm => Sys2Proof.Machine.execSbiY imm s
  | .incA => Sys2Proof.Machine.execIncA s
  | .decA => Sys2Proof.Machine.execDecA s
  | .incB => Sys2Proof.Machine.execIncB s
  | .decB => Sys2Proof.Machine.execDecB s
  | .incX => Sys2Proof.Machine.execIncX s
  | .decX => Sys2Proof.Machine.execDecX s
  | .incY => Sys2Proof.Machine.execIncY s
  | .decY => Sys2Proof.Machine.execDecY s
  -- StackRead
  | .popA => Sys2Proof.Machine.execPopA s
  | .peekA => Sys2Proof.Machine.execPeekA s
  | .popB => Sys2Proof.Machine.execPopB s
  | .peekB => Sys2Proof.Machine.execPeekB s
  | .popX => Sys2Proof.Machine.execPopX s
  | .peekX => Sys2Proof.Machine.execPeekX s
  | .popY => Sys2Proof.Machine.execPopY s
  | .peekY => Sys2Proof.Machine.execPeekY s
  -- StoreIndirect
  | .stiA => Sys2Proof.Machine.execStiA s
  | .stiB => Sys2Proof.Machine.execStiB s
  -- Move
  | .movBA => Sys2Proof.Machine.execMovBA s
  | .movXA => Sys2Proof.Machine.execMovXA s
  | .movYA => Sys2Proof.Machine.execMovYA s
  | .movAB => Sys2Proof.Machine.execMovAB s
  | .movXB => Sys2Proof.Machine.execMovXB s
  | .movYB => Sys2Proof.Machine.execMovYB s
  | .movAX => Sys2Proof.Machine.execMovAX s
  | .movBX => Sys2Proof.Machine.execMovBX s
  | .movYX => Sys2Proof.Machine.execMovYX s
  | .movAY => Sys2Proof.Machine.execMovAY s
  | .movBY => Sys2Proof.Machine.execMovBY s
  | .movXY => Sys2Proof.Machine.execMovXY s
  -- Transfer
  | .jmp addr => Sys2Proof.Machine.execJmp addr s
  | .jsr addr => Sys2Proof.Machine.execJsr addr s
  | .ret => Sys2Proof.Machine.execRet s
  | .jse addr => Sys2Proof.Machine.execJse addr s
  | .jsn addr => Sys2Proof.Machine.execJsn addr s
  | .bne addr => Sys2Proof.Machine.execBne addr s
  | .beq addr => Sys2Proof.Machine.execBeq addr s
  -- AluPairwise
  | .addAA => Sys2Proof.Machine.execAddAA s
  | .addAB => Sys2Proof.Machine.execAddAB s
  | .addAX => Sys2Proof.Machine.execAddAX s
  | .addAY => Sys2Proof.Machine.execAddAY s
  | .addBA => Sys2Proof.Machine.execAddBA s
  | .addBB => Sys2Proof.Machine.execAddBB s
  | .addBX => Sys2Proof.Machine.execAddBX s
  | .addBY => Sys2Proof.Machine.execAddBY s
  | .addXA => Sys2Proof.Machine.execAddXA s
  | .addXB => Sys2Proof.Machine.execAddXB s
  | .addXX => Sys2Proof.Machine.execAddXX s
  | .addXY => Sys2Proof.Machine.execAddXY s
  | .addYA => Sys2Proof.Machine.execAddYA s
  | .addYB => Sys2Proof.Machine.execAddYB s
  | .addYX => Sys2Proof.Machine.execAddYX s
  | .addYY => Sys2Proof.Machine.execAddYY s
  | .subAA => Sys2Proof.Machine.execSubAA s
  | .subAB => Sys2Proof.Machine.execSubAB s
  | .subAX => Sys2Proof.Machine.execSubAX s
  | .subAY => Sys2Proof.Machine.execSubAY s
  | .subBA => Sys2Proof.Machine.execSubBA s
  | .subBB => Sys2Proof.Machine.execSubBB s
  | .subBX => Sys2Proof.Machine.execSubBX s
  | .subBY => Sys2Proof.Machine.execSubBY s
  | .subXA => Sys2Proof.Machine.execSubXA s
  | .subXB => Sys2Proof.Machine.execSubXB s
  | .subXX => Sys2Proof.Machine.execSubXX s
  | .subXY => Sys2Proof.Machine.execSubXY s
  | .subYA => Sys2Proof.Machine.execSubYA s
  | .subYB => Sys2Proof.Machine.execSubYB s
  | .subYX => Sys2Proof.Machine.execSubYX s
  | .subYY => Sys2Proof.Machine.execSubYY s
  -- StackPush
  | .pushA => Sys2Proof.Machine.execPushA s
  | .pushB => Sys2Proof.Machine.execPushB s
  | .pushX => Sys2Proof.Machine.execPushX s
  | .pushY => Sys2Proof.Machine.execPushY s
  -- StoreAbsolute
  | .stA addr => Sys2Proof.Machine.execStA addr s
  | .stB addr => Sys2Proof.Machine.execStB addr s
  | .stX addr => Sys2Proof.Machine.execStX addr s
  | .stY addr => Sys2Proof.Machine.execStY addr s
  -- SetFlag
  | .sezA => Sys2Proof.Machine.execSezA s
  | .sezB => Sys2Proof.Machine.execSezB s
  | .sezX => Sys2Proof.Machine.execSezX s
  | .sezY => Sys2Proof.Machine.execSezY s
  -- Unmapped opcodes
  | .unmapped op => Sys2Proof.Machine.execUnmapped op s

end Sys2Proof.Machine
end

