-- ==== Sys2Proof/Machine/Fetch.lean ====
section
/-! DEFINITION. Steps 1 and 2 of the cycle: fetching an instruction's bytes and decoding them (30_encoding.md R302 to R304). -/

namespace Sys2Proof.Machine

/-- `FetchByte()`: read at PC through the address decoder, then advance PC (R303). -/
def fetchByte (s : State) : Byte × State :=
  let r := memRead s s.pc
  (r.1, r.2.setPc (r.2.pc + 1))

/-- The opcode fetch: the one write of IR (R302 step 1, R125). -/
def fetchOpcode (s : State) : Byte × State :=
  let r := fetchByte s
  (r.1, r.2.setIr r.1)

/-- Fetch and decode one instruction. The opcode is fetched first, then the operand bytes of its format in address order,
before any other access (R304); IR selects the format and the instruction (R302 step 2). -/
def fetchInstr (s : State) : Instr × State :=
  let o := fetchOpcode s
  match formatOf o.2.ir with
  | .I => (instrOf o.2.ir 0 0, o.2)
  | .M =>
    let b1 := fetchByte o.2
    (instrOf o.2.ir b1.1 0, b1.2)
  | .W =>
    let b1 := fetchByte o.2
    let b2 := fetchByte b1.2
    (instrOf o.2.ir b1.1 b2.1, b2.2)

end Sys2Proof.Machine
end

