-- ==== Sys2Proof/Machine/Loader.lean ====
section
/-! DEFINITION. The Loader: what stands in memory before the first cycle (00_scope.md R12, 70_reset_and_hazards.md R1502).
It writes cells directly, not through the address decoder, so it makes no report and no device event (D29). -/

namespace Sys2Proof.Machine

/-- Store an image's cells in order, those below `size` only. -/
def loadCells (size : Nat) : Memory → List Host.Cell → Memory
  | m, [] => m
  | m, (i, v) :: image => loadCells size (if i < size then memSet m i v else m) image

/-- Load `ramImage`, by address, into RAM 0x0000 to 0x7EFF, and `romImage`, by ROM key (`romIndex`), into ROM. Cells the
images do not give keep their value; cells outside those ranges are ignored (log 7). -/
def State.load (s : State) (ramImage romImage : List Host.Cell) : State :=
  (s.setRam (loadCells Config.loaderRamSize s.ram ramImage)).setRom (loadCells Config.romSize s.rom romImage)

/-- The machine after reset with the Loader's image: the start of a run (R130, R1502). -/
def State.boot (ramImage romImage : List Host.Cell) : State := State.reset.load ramImage romImage

/-! ## Placing one instruction at PC, for `State.withFetchWord` (log 8) -/

/-- The address selects a cell that keeps the byte placed in it: RAM, or ROM of a bank that exists. -/
def State.plainCell (s : State) (addr : Addr) : Bool :=
  match targetOf addr with
  | .ram => true
  | .rom => bankPresent s.mpH s.mpL
  | _ => false

/-- Place a byte in the RAM or ROM cell an address selects, as the Loader would; nowhere, if it selects no such cell. -/
def State.placeByte (s : State) (addr : Addr) (v : Byte) : State :=
  match targetOf addr with
  | .ram => s.setRam (memSet s.ram addr.toNat v)
  | .rom => if bankPresent s.mpH s.mpL then s.setRom (memSet s.rom (s.romKey addr) v) else s
  | _ => s

/-- Place bytes at consecutive addresses, wrapping at 0xFFFF. -/
def State.placeBytes (s : State) (addr : Addr) : List Byte → State
  | [] => s
  | v :: rest => (s.placeByte addr v).placeBytes (addr + 1) rest

/-- Where the next instruction can be placed: PC, if its three bytes are plain cells, and else address 0x0000. -/
def State.placeAddr (s : State) : Addr :=
  if s.plainCell s.pc && s.plainCell (s.pc + 1) && s.plainCell (s.pc + 2) then s.pc else 0

/-- Make the next step fetch these bytes: RUNNING, PC at a place that can hold them, and the bytes there. -/
def State.placeInstr (s : State) (bytes : List Byte) : State :=
  ((s.setPc s.placeAddr).setRun .running).placeBytes s.placeAddr bytes

end Sys2Proof.Machine
end

