-- ==== Sys2Proof/Machine/Step.lean ====
section
/-! DEFINITION. One step of the machine: one `cycle` of the driver's interface (00_scope.md R10). -/

namespace Sys2Proof.Machine

/-- One cycle. RUNNING: fetch and decode an instruction, then execute it (30_encoding.md R302). HALTED: nothing at all
(R307). The run state and the events that R10 returns to the driver are fields of the next state (log 2). -/
def step (s : State) : Host.Outcome State Fault Refusal :=
  match s.run with
  | .halted => .next s
  | .running => exec (fetchInstr s).1 (fetchInstr s).2

/-- `s` with the table's word `w` of `nbits` bits placed where the next step fetches (logs 7, 8). -/
def State.withFetchWord (s : State) (nbits w : Nat) : State := s.placeInstr (tableBytes nbits w)

end Sys2Proof.Machine
end

