-- ==== Sys2Proof/Safety.lean ====
section
/-! DEFINITION. What a good state and a good step are: the terms the statements are written in. Nothing here is used by the
machine. -/

namespace Sys2Proof

/-- The index of a general register: A 0, B 1, X 2, Y 3 (10_state.md R103). -/
def Reg.index : Reg → Nat
  | .A => 0
  | .B => 1
  | .X => 2
  | .Y => 3

end Sys2Proof

namespace Sys2Proof.Machine

/-! ## States -/

/-- RAM and ROM are in canonical form and hold no cell outside 0x0000 to 0x7FFF and the 255 x 255 banks. -/
def State.memoryWf (s : State) : Bool := memWf Config.ramSize s.ram && memWf Config.romSize s.rom

/-- F[7:2] are all 0, as in every state reached from reset (10_state.md R112). -/
def State.flagsClean (s : State) : Bool := s.f >>> 2 == 0

/-- The machine's invariant: canonical memory and clean flags. -/
def State.inv (s : State) : Bool := s.memoryWf && s.flagsClean

/-- The byte a read of `addr` returns, where the read has no side effect and its result is fixed: RAM, the page-select
registers, and ROM of a bank that exists (20_memory.md R216). -/
def State.view (s : State) (addr : Addr) : Option Byte :=
  match targetOf addr with
  | .ram => some (memGet s.ram addr.toNat)
  | .pageLow => some s.mpL
  | .pageHigh => some s.mpH
  | .rom => if bankPresent s.mpH s.mpL then some (memGet s.rom (s.romKey addr)) else none
  | .device => none

/-- These bytes stand at consecutive addresses from `addr`, wrapping at 0xFFFF, each fixed as `State.view` says. -/
def State.holds (s : State) : Addr → List Byte → Bool
  | _, [] => true
  | addr, v :: rest => s.view addr == some v && s.holds (addr + 1) rest

/-- The events that `t`, reached from `s`, has added to the trace (00_scope.md R10). -/
def eventsSince (s t : State) : List Event := t.trace.drop s.trace.length

/-! ## Frames: what two states share -/

/-- The four general registers. -/
def SameRegs (s t : State) : Prop := ∀ r, t.reg r = s.reg r

/-- Every byte of RAM. -/
def SameRam (s t : State) : Prop := ∀ i, memGet t.ram i = memGet s.ram i

/-- Everything but the general registers, F, SP, PC and RAM: IR, the page-select registers, the run state, ROM, the events,
and the model's own device answers and draw count. -/
structure SameElse (s t : State) : Prop where
  ir : t.ir = s.ir
  mpL : t.mpL = s.mpL
  mpH : t.mpH = s.mpH
  run : t.run = s.run
  rom : t.rom = s.rom
  trace : t.trace = s.trace
  deviceInput : t.deviceInput = s.deviceInput
  draws : t.draws = s.draws

/-! ## Effects, spelled out bit by bit and address by address -/

/-- The flag check on the result `v` (41_alu_single.md R501): Z, N, and the six bits it keeps. -/
structure FlagsChecked (s t : State) (v : Byte) : Prop where
  z : t.f.getLsbD 0 = decide (v = 0)
  n : t.f.getLsbD 1 = decide (v ≠ 0)
  kept : ∀ i, 2 ≤ i → t.f.getLsbD i = s.f.getLsbD i

/-- Register `r` becomes `v`, the flag check runs on it, and nothing else changes. -/
structure AluDone (r : Reg) (v : Byte) (s t : State) : Prop where
  dest : t.reg r = v
  others : ∀ q, q ≠ r → t.reg q = s.reg q
  flags : FlagsChecked s t v
  pc : t.pc = s.pc
  sp : t.sp = s.sp
  ram : SameRam s t
  rest : SameElse s t

/-- Register `r` becomes `v`, SP becomes `sp`, and nothing else changes. -/
structure RegDone (r : Reg) (v sp : Byte) (s t : State) : Prop where
  dest : t.reg r = v
  others : ∀ q, q ≠ r → t.reg q = s.reg q
  f : t.f = s.f
  pc : t.pc = s.pc
  sp : t.sp = sp
  ram : SameRam s t
  rest : SameElse s t

/-- PC becomes `pc`, SP becomes `sp`, and nothing else changes. -/
structure JumpDone (pc : Addr) (sp : Byte) (s t : State) : Prop where
  regs : SameRegs s t
  f : t.f = s.f
  pc : t.pc = pc
  sp : t.sp = sp
  ram : SameRam s t
  rest : SameElse s t

/-- A subroutine call (45_control_transfer.md R901): the return address `s.pc` goes to the stack low byte first, SP moves
by 2, PC becomes `target`, and nothing else changes. The two slots differ, so the order of the two cases is no choice. -/
structure CallDone (target : Addr) (s t : State) : Prop where
  regs : SameRegs s t
  f : t.f = s.f
  pc : t.pc = target
  sp : t.sp = s.sp + 2
  ram : ∀ i, memGet t.ram i =
    if i = 0x7F00 + s.sp.toNat then s.pc.extractLsb' 0 8
    else if i = 0x7F00 + (s.sp + 1).toNat then s.pc.extractLsb' 8 8
    else memGet s.ram i
  rest : SameElse s t

/-- The whole effect of `MemWrite(addr, 1, v)` (20_memory.md R211), address by address: at most one RAM cell, one
page-select register or one event, and nothing else. -/
structure StoreDone (addr : Addr) (v : Byte) (s t : State) : Prop where
  regs : SameRegs s t
  f : t.f = s.f
  sp : t.sp = s.sp
  ir : t.ir = s.ir
  pc : t.pc = s.pc
  run : t.run = s.run
  ram : ∀ i, memGet t.ram i = if addr.toNat ≤ 0x7FFF ∧ i = addr.toNat then v else memGet s.ram i
  rom : t.rom = s.rom
  mpL : t.mpL = if addr.toNat = 0xFFFA then v else s.mpL
  mpH : t.mpH = if addr.toNat = 0xFFFB then v else s.mpH
  trace : t.trace = s.trace ++
    (if addr.toNat ≤ 0x7FFF ∨ addr.toNat = 0xFFFA ∨ addr.toNat = 0xFFFB then []
     else if 0xFFF0 ≤ addr.toNat ∧ addr.toNat ≤ 0xFFF9 then [.devWrite addr v]
     else [.readOnlyViolation addr v])
  deviceInput : t.deviceInput = s.deviceInput
  draws : t.draws = s.draws

/-! ## Cycles -/

/-- `n` cycles, one after another, as the driver invokes them (00_scope.md R10). -/
def cycles : Nat → State → Result
  | 0, s => .next s
  | n + 1, s =>
    match step s with
    | .next t => cycles n t
    | r => r

/-- `n` bytes fetched one after another, and the state after them. -/
def fetchBytes : Nat → State → List Byte × State
  | 0, s => ([], s)
  | n + 1, s => ((fetchByte s).1 :: (fetchBytes n (fetchByte s).2).1, (fetchBytes n (fetchByte s).2).2)

/-- The register a 2-bit field names, from an opcode number. -/
def regAt (k : Nat) : Reg :=
  match k with
  | 0 => .A
  | 1 => .B
  | 2 => .X
  | _ => .Y

/-- FLAGCHECK_OPS, the 56 opcodes of 41_alu_single.md R505. -/
def isFlagCheckOp (op : Nat) : Bool :=
  (0x10 ≤ op && op ≤ 0x1F) || [0x20, 0x21, 0x24, 0x25, 0x28, 0x29, 0x2C, 0x2D].contains op || (0x80 ≤ op && op ≤ 0x9F)

/-- The general register an opcode writes, if it writes one (10_state.md R104): `op[3:2]` for the flag-check opcodes, POP
and PEEK, `op[1:0]` for the twelve moves. -/
def writtenReg (op : Nat) : Option Reg :=
  if isFlagCheckOp op || [0x30, 0x31, 0x34, 0x35, 0x38, 0x39, 0x3C, 0x3D].contains op then some (regAt (op / 4 % 4))
  else if 0x61 ≤ op && op ≤ 0x6E && op != 0x65 && op != 0x6A then some (regAt (op % 4))
  else none

/-- The address an instruction stores to through the address decoder: STI at {Y, X}, ST at its operand. -/
def State.storeAddr (s : State) : Instr → Option Addr
  | .stiA | .stiB => some s.indirectAddr
  | .stA addr | .stB addr | .stX addr | .stY addr => some addr
  | _ => none

/-- Where an instruction sends PC, if it transfers control: the jumps, the taken branches and calls, and RET
(45_control_transfer.md R910 to R916). -/
def State.transferTo (s : State) : Instr → Option Addr
  | .jmp addr | .jsr addr => some addr
  | .ret => some (returnTarget s)
  | .jse addr | .beq addr => if s.flagZ then some addr else none
  | .jsn addr | .bne addr => if s.flagZ then none else some addr
  | _ => none

/-- How far an instruction moves SP, modulo 2^8 (10_state.md R113): PUSH 1, POP -1, a call made 2, RET -2. -/
def State.stackMove (s : State) : Instr → Byte
  | .pushA | .pushB | .pushX | .pushY => 1
  | .popA | .popB | .popX | .popY => -1
  | .jsr _ => 2
  | .jse _ => if s.flagZ then 2 else 0
  | .jsn _ => if s.flagZ then 0 else 2
  | .ret => -2
  | _ => 0

/-- The port of a device read. -/
def readPort : Event → Option Addr
  | .devRead port _ => some port
  | _ => none

/-- Wherever these bytes stand at PC, a RUNNING machine's next step is the instruction `i`, executed with IR the opcode
and PC past the bytes. -/
def RunsFrom (bytes : List Byte) (i : Instr) : Prop :=
  ∀ s : State, s.run = .running → s.holds s.pc bytes = true →
    step s = exec i ((s.setPc (s.pc + BitVec.ofNat 16 bytes.length)).setIr (bytes.headD 0))

end Sys2Proof.Machine
end

