-- ==== Sys2Proof/Certificates/Slice0/Obligations.lean ====
section
/-! DEFINITION. The statements for the provers, from the numbered rules of spec/. `exec i s` runs `i` in the state after its
bytes are fetched (log 1), so PC in `s` is past the instruction and IR is its opcode; `RunsFrom bytes i` says what brings
a cycle there. The terms are those of Sys2Proof/Safety.lean. -/

open Sys2Proof Sys2Proof.Machine

/-! ## Reset and the Loader -/

/-- R1501: with every image the Loader gives, the machine is RUNNING at 0x0000, which is RAM; the first cycle's opcode is the
byte loaded there; and the ROM window shows bank (0, 0). With no image that state is `State.reset`. -/
def Obligations.ResetEntry : Prop :=
  State.boot [] [] = State.reset ∧
  ∀ ramImage romImage : List Host.Cell,
    let s := State.boot ramImage romImage
    s.run = .running ∧ s.pc = 0 ∧ targetOf s.pc = .ram ∧
    (fetchOpcode s).1 = memGet s.ram 0 ∧
    (∀ addr : Addr, targetOf addr = .rom → memRead s addr = (memGet s.rom (romIndex 0 0 (addr.toNat - 0x8000)), s))

/-- R130: every register and memory cell after reset, for every image the Loader gives, in canonical form and inside the
Loader's ranges. -/
def Obligations.ResetValuesWithImage : Prop :=
  ∀ ramImage romImage : Memory, memWf 0x7F00 ramImage = true → memWf Config.romSize romImage = true →
    let s := State.boot ramImage romImage
    (∀ r, s.reg r = 0) ∧ s.f = 0 ∧ s.sp = 0 ∧ s.ir = 0 ∧ s.pc = 0 ∧ s.run = .running ∧ s.mpL = 0 ∧ s.mpH = 0 ∧
    (∀ i, i < 0x7F00 → memGet s.ram i = memGet ramImage i) ∧
    (∀ i, 0x7F00 ≤ i → i < 0x8000 → memGet s.ram i = 0) ∧
    (∀ i, memGet s.rom i = memGet romImage i)

/-- The model's own fields after reset (DESIGN CHOICE, logs 2, 3, 4): no event, no device answer ready, no draw; and the
memory is in canonical form. -/
def Obligations.ResetHoldsInvariant : Prop :=
  State.reset.inv = true ∧ State.reset.trace = [] ∧ State.reset.deviceInput = [] ∧ State.reset.draws = 0

/-! ## Encoding -/

/-- Every well-formed instruction is read back from its own bytes, whatever follows them. -/
def Obligations.DecodeOfEncode : Prop :=
  ∀ (i : Instr) (rest : List Byte), i.wf = true → decode (encode i ++ rest) = .ok (i, rest)

/-- What the decoder reads is well-formed, and its encoding is exactly the bytes read. -/
def Obligations.EncodeOfDecode : Prop :=
  ∀ (bytes : List Byte) (i : Instr) (rest : List Byte), decode bytes = .ok (i, rest) → i.wf = true ∧ encode i ++ rest = bytes

/-- A few words of R313's map, written out. -/
def Obligations.DecodeSampleWords : Prop :=
  decode [0x02] = .ok (.hlt, []) ∧ decode [0x12, 0x42] = .ok (.adiA 0x42, []) ∧ decode [0x25] = .ok (.decB, []) ∧
  decode [0x61] = .ok (.movBA, []) ∧ decode [0x71, 0x10, 0x20] = .ok (.jsr 0x2010, []) ∧ decode [0x8E] = .ok (.addYX, []) ∧
  decode [0xC2, 0xFB, 0xFF] = .ok (.stX 0xFFFB, []) ∧ decode [0xDA] = .ok (.sezX, []) ∧ decode [0x65] = .ok (.unmapped 0x65, [])

/-- R316: the opcode alone gives the length, and the decoder consumes exactly that many bytes. -/
def Obligations.OpcodeGivesLength : Prop :=
  ∀ op : Byte,
    (formatOf op).length =
      (if [0x12, 0x13, 0x16, 0x17, 0x1A, 0x1B, 0x1E, 0x1F].contains op.toNat then 2
       else if [0x70, 0x71, 0x73, 0x74, 0x75, 0x76, 0xC0, 0xC1, 0xC2, 0xC3].contains op.toNat then 3 else 1) ∧
    ∀ (tail rest : List Byte) (i : Instr), decode (op :: tail) = .ok (i, rest) →
      i.length = (formatOf op).length ∧ rest = (op :: tail).drop (formatOf op).length

/-! ## The cycle -/

/-- A step runs the decoded instruction: bytes that decode to `i`, standing at PC of a RUNNING machine, are run as `i`. -/
def Obligations.StepRunsDecodedInstruction : Prop :=
  ∀ (bytes : List Byte) (i : Instr), decode bytes = .ok (i, []) → RunsFrom bytes i

/-- R303: `FetchByte` reads at PC through the address decoder, then advances PC by one modulo 2^16; and at any address,
device ports and absent banks too, a cycle fetches its instruction's bytes so, one by one, the opcode into IR, decodes
them and executes. -/
def Obligations.CycleFetchesDecodesExecutes : Prop :=
  ∀ s : State,
    (fetchByte s = ((memRead s s.pc).1, (memRead s s.pc).2.setPc (s.pc + 1)) ∧
      (fetchByte s).2.pc.toNat = (s.pc.toNat + 1) % 2 ^ 16) ∧
    (s.run = .running → ∃ i : Instr,
      decode (fetchBytes i.length s).1 = .ok (i, []) ∧
      step s = exec i ((fetchBytes i.length s).2.setIr ((fetchBytes i.length s).1.headD 0)))

/-- R128: every cycle answers a next state; HALTED is entered only from RUNNING by HLT and never left. -/
def Obligations.EveryCycleAnswersNext : Prop :=
  ∀ s : State, ∃ t, step s = .next t ∧
    (t.run = .halted ↔ s.run = .halted ∨ (fetchInstr s).1 = .hlt)

/-- R307: a cycle in HALTED changes nothing, and so no number of cycles does. -/
def Obligations.HaltedCycleDoesNothing : Prop :=
  ∀ (s : State) (n : Nat), s.run = .halted → step s = .next s ∧ cycles n s = .next s

/-- R305: the next PC is the target of a transfer that is made, and else the opcode's address plus the length. -/
def Obligations.NextPcOfCycle : Prop :=
  ∀ s t : State, s.run = .running → step s = .next t →
    t.pc = ((fetchInstr s).2.transferTo (fetchInstr s).1).getD (s.pc + BitVec.ofNat 16 (fetchInstr s).1.length)

/-- R125: after a cycle IR holds the opcode fetched, and only the opcode. -/
def Obligations.CycleLeavesOpcodeInIr : Prop :=
  ∀ s t : State, s.run = .running → step s = .next t →
    t.ir = (memRead s s.pc).1 ∧ opcodeOf (fetchInstr s).1 = t.ir

/-! ## The address decoder -/

/-- R202: the address map; an address of a ROM row selects offset `addr - 0x8000` of bank (mpH, mpL), where `romIndex h l o`
names the cell of bank (h, l) at offset o. -/
def Obligations.AddressMap : Prop :=
  ∀ (s : State) (addr : Addr),
    (targetOf addr =
      if addr.toNat ≤ 0x7FFF then .ram
      else if 0xFFF0 ≤ addr.toNat ∧ addr.toNat ≤ 0xFFF9 then .device
      else if addr.toNat = 0xFFFA then .pageLow
      else if addr.toNat = 0xFFFB then .pageHigh
      else .rom) ∧
    s.romKey addr = romIndex s.mpH s.mpL (addr.toNat - 0x8000)

/-- R210: what each kind of read returns and changes. The byte of an absent bank is any byte: nothing is said of it. -/
def Obligations.MemReadByTarget : Prop :=
  ∀ (s : State) (addr : Addr),
    (addr.toNat ≤ 0x7FFF → memRead s addr = (memGet s.ram addr.toNat, s)) ∧
    (addr.toNat = 0xFFFA → memRead s addr = (s.mpL, s)) ∧
    (addr.toNat = 0xFFFB → memRead s addr = (s.mpH, s)) ∧
    (0xFFF0 ≤ addr.toNat → addr.toNat ≤ 0xFFF9 → ∃ v rest, memRead s addr =
      (v, { s with trace := s.trace ++ [.devRead addr v], deviceInput := rest })) ∧
    ((0x8000 ≤ addr.toNat ∧ addr.toNat ≤ 0xFFEF) ∨ 0xFFFC ≤ addr.toNat →
      (s.mpH.toNat ≤ 254 → s.mpL.toNat ≤ 254 →
        memRead s addr = (memGet s.rom (romIndex s.mpH s.mpL (addr.toNat - 0x8000)), s)) ∧
      (s.mpH = 0xFF ∨ s.mpL = 0xFF → ∃ v n, memRead s addr = (v, { s with draws := n })))

/-- R211: the whole effect of a write, at every address. -/
def Obligations.MemWriteEffect : Prop :=
  ∀ (s : State) (addr : Addr) (v : Byte), StoreDone addr v s (memWrite s addr v)

/-- R209: a RAM cell reads as the byte last written to it, and a write reaches no other cell. -/
def Obligations.RamReadsLastWrite : Prop :=
  ∀ (s : State) (addr : Addr) (v : Byte), addr.toNat ≤ 0x7FFF →
    memRead (memWrite s addr v) addr = (v, memWrite s addr v) ∧
    ∃ m, memWrite s addr v = { s with ram := m } ∧ ∀ i, i ≠ addr.toNat → memGet m i = memGet s.ram i

/-- R208: a page-select register takes the byte written, reads back, makes no event, and governs the next ROM read. -/
def Obligations.PageWriteGovernsNextRead : Prop :=
  ∀ (s : State) (v : Byte),
    memWrite s 0xFFFA v = { s with mpL := v } ∧ memWrite s 0xFFFB v = { s with mpH := v } ∧
    memRead (memWrite s 0xFFFA v) 0xFFFA = (v, { s with mpL := v }) ∧
    memRead (memWrite s 0xFFFB v) 0xFFFB = (v, { s with mpH := v }) ∧
    ∀ addr : Addr, targetOf addr = .rom →
      (s.mpH.toNat ≤ 254 → v.toNat ≤ 254 →
        (memRead (memWrite s 0xFFFA v) addr).1 = memGet s.rom (romIndex s.mpH v (addr.toNat - 0x8000))) ∧
      (s.mpL.toNat ≤ 254 → v.toNat ≤ 254 →
        (memRead (memWrite s 0xFFFB v) addr).1 = memGet s.rom (romIndex v s.mpL (addr.toNat - 0x8000)))

/-- Model's choice (log 3): the answers the outside world has ready are taken in order, one a device read. -/
def Obligations.DeviceAnswersInOrder : Prop :=
  ∀ (s : State) (port : Addr) (v : Byte) (rest : List Byte), targetOf port = .device → s.deviceInput = v :: rest →
    memRead s port = (v, { s with trace := s.trace ++ [.devRead port v], deviceInput := rest })

/-- Distinct ROM cells of the banks that exist have distinct keys (log 6), all inside the model's ROM. -/
def Obligations.RomCellsDistinct : Prop :=
  ∀ (h l h' l' : Byte) (o o' : Nat), bankPresent h l = true → bankPresent h' l' = true → o < 0x8000 → o' < 0x8000 →
    romIndex h l o < Config.romSize ∧ (romIndex h l o = romIndex h' l' o' → h = h' ∧ l = l' ∧ o = o')

/-- Equal contents are equal data: two canonical memories that read alike are the same list. -/
def Obligations.CanonicalMemoryUnique : Prop :=
  ∀ (size : Nat) (m m' : Memory), memWf size m = true → memWf size m' = true → (∀ i, memGet m i = memGet m' i) → m = m'

/-! ## The stack -/

/-- R123: the stack primitives stay in RAM, wrap silently, make no event, and a read leaves what it reads. -/
def Obligations.StackStaysInRam : Prop :=
  ∀ (s : State) (v : Byte),
    0x7F00 ≤ stackAddr s.sp ∧ stackAddr s.sp ≤ 0x7FFF ∧
    (push s v).trace = s.trace ∧ (popState s).trace = s.trace ∧ (popState s).ram = s.ram ∧
    memGet (push s v).ram (0x7F00 + s.sp.toNat) = v ∧ (push s v).sp.toNat = (s.sp.toNat + 1) % 256 ∧
    (s.sp = 0 → popValue s = memGet s.ram 0x7FFF ∧ (popState s).sp = 0xFF)

/-- Two PUSHes, then two POPs, of any registers, the same or not, at every SP: the last byte pushed comes back first, and SP
is back where it was. -/
def Obligations.PushesPopInReverse : Prop :=
  ∀ (s u v w t : State) (p q p' q' : Reg), exec (.push p) s = .next u → exec (.push q) u = .next v →
    exec (.pop p') v = .next w → exec (.pop q') w = .next t →
    w.reg p' = s.reg q ∧ t.reg q' = s.reg p ∧ t.sp = s.sp

/-- The ring: `n` pushes in a row move SP by `n` modulo 256, so 257 leave it where one does. -/
def Obligations.PushesWrapRing : Prop :=
  ∀ (v : Byte) (n : Nat) (s : State),
    (Nat.repeat (fun u => push u v) n s).sp = s.sp + BitVec.ofNat 8 n ∧
    (Nat.repeat (fun u => push u v) 257 s).sp = (push s v).sp

/-- RET after a call (the convention of R901) comes back to the byte after the call's operand, with SP as before, whatever ran between, if it
left SP and the two bytes of the return address as the call left them. -/
def Obligations.ReturnUndoesCall : Prop :=
  ∀ (s u v t : State) (target : Addr), exec (.jsr target) s = .next u → v.sp = u.sp →
    memGet v.ram (stackAddr s.sp) = memGet u.ram (stackAddr s.sp) →
    memGet v.ram (stackAddr (s.sp + 1)) = memGet u.ram (stackAddr (s.sp + 1)) →
    exec .ret v = .next t → t.pc = s.pc ∧ t.sp = s.sp

/-! ## Control and flags, 0x00 to 0x08 and 0xD0 to 0xDF -/

/-- R400, R401, R403, R404: NOP, RST, BRK and CTN change nothing; a cycle moves PC and IR alone. -/
def Obligations.NopRstBrkCtnDoNothing : Prop :=
  RunsFrom [0x00] .nop ∧ RunsFrom [0x01] .rst ∧ RunsFrom [0x03] .brk ∧ RunsFrom [0x04] .ctn ∧
  ∀ s : State, exec .nop s = .next s ∧ exec .rst s = .next s ∧ exec .brk s = .next s ∧ exec .ctn s = .next s

/-- R314: the 150 unmapped opcodes are one byte long and execute as NOP. -/
def Obligations.UnmappedOpcodesAreNop : Prop :=
  ((List.range 256).filter fun n => isUnmapped (BitVec.ofNat 8 n)).length = 150 ∧
  ∀ op : Byte, isUnmapped op = true →
    (∀ rest, decode (op :: rest) = .ok (.unmapped op, rest)) ∧ RunsFrom [op] (.unmapped op) ∧
    ∀ s : State, exec (.unmapped op) s = .next s

/-- R402: HLT writes the run state alone. -/
def Obligations.HltHalts : Prop :=
  RunsFrom [0x02] .hlt ∧ ∀ s : State, exec .hlt s = .next { s with run := .halted }

/-- R405 to R408: CLC, CLN, CLZ and CLV clear bit 2, 1, 0 and 3 of F, and nothing else changes. -/
def Obligations.FlagClearsClearOneBit : Prop :=
  RunsFrom [0x05] .clc ∧ RunsFrom [0x06] .cln ∧ RunsFrom [0x07] .clz ∧ RunsFrom [0x08] .clv ∧
  ∀ s : State, ∀ p ∈ [(Instr.clc, 2), (Instr.cln, 1), (Instr.clz, 0), (Instr.clv, 3)],
    ∃ f : Byte, exec p.1 s = .next { s with f := f } ∧
      ∀ k, f.getLsbD k = if k = p.2 then false else s.f.getLsbD k

/-- R1300, R1310 to R1313: the four SEZ opcodes set bit 0 of F, and nothing else changes. -/
def Obligations.SezSetsZero : Prop :=
  ∀ r : Reg, RunsFrom [BitVec.ofNat 8 (0xD0 + 5 * r.index)] (.sez r) ∧
    ∀ s : State, ∃ f : Byte, exec (.sez r) s = .next { s with f := f } ∧
      ∀ k, f.getLsbD k = if k = 0 then true else s.f.getLsbD k

/-! ## Arithmetic, 0x10 to 0x2D and 0x80 to 0x9F -/

/-- The rotations (R502) as formulas over 0 to 255, bit by bit, and one undoes the other. -/
def Obligations.RotationFormulas : Prop :=
  ∀ v : Byte,
    (rol8 v).toNat = (v.toNat * 2 ||| v.toNat / 128) % 256 ∧ (ror8 v).toNat = (v.toNat / 2 ||| v.toNat * 128) % 256 ∧
    (rol8 v).getLsbD 0 = v.getLsbD 7 ∧ (ror8 v).getLsbD 7 = v.getLsbD 0 ∧
    ror8 (rol8 v) = v ∧ rol8 (ror8 v) = v

/-- ROL and ROR of each register: the circular rotation by one, with the flag check. -/
def Obligations.RotatesByOne : Prop :=
  ∀ r : Reg, RunsFrom [BitVec.ofNat 8 (0x10 + 4 * r.index)] (.rol r) ∧ RunsFrom [BitVec.ofNat 8 (0x11 + 4 * r.index)] (.ror r) ∧
    ∀ s : State,
      (∃ t, exec (.rol r) s = .next t ∧ AluDone r ((s.reg r).rotateLeft 1) s t) ∧
      (∃ t, exec (.ror r) s = .next t ∧ AluDone r ((s.reg r).rotateRight 1) s t)

/-- ADI and SBI of each register: the immediate as fetched, added or subtracted modulo 2^8, with the flag check. -/
def Obligations.AdiSbiUseImmediate : Prop :=
  ∀ (r : Reg) (imm : Byte),
    RunsFrom [BitVec.ofNat 8 (0x12 + 4 * r.index), imm] (.adi r imm) ∧
    RunsFrom [BitVec.ofNat 8 (0x13 + 4 * r.index), imm] (.sbi r imm) ∧
    ∀ s : State,
      (∃ t, exec (.adi r imm) s = .next t ∧ AluDone r (BitVec.ofNat 8 (((s.reg r).toNat + imm.toNat) % 256)) s t) ∧
      (∃ t, exec (.sbi r imm) s = .next t ∧ AluDone r (BitVec.ofNat 8 (((s.reg r).toNat + 256 - imm.toNat) % 256)) s t)

/-- INC and DEC of each register. -/
def Obligations.IncDecByOne : Prop :=
  ∀ r : Reg, RunsFrom [BitVec.ofNat 8 (0x20 + 4 * r.index)] (.inc r) ∧ RunsFrom [BitVec.ofNat 8 (0x21 + 4 * r.index)] (.dec r) ∧
    ∀ s : State,
      (∃ t, exec (.inc r) s = .next t ∧ AluDone r (BitVec.ofNat 8 (((s.reg r).toNat + 1) % 256)) s t) ∧
      (∃ t, exec (.dec r) s = .next t ∧ AluDone r (BitVec.ofNat 8 (((s.reg r).toNat + 255) % 256)) s t)

/-- ADD and SUB of every pair: the destination field is bits 3:2, the operand field bits 1:0; a register added to itself
doubles, one subtracted from itself is zero. With the flag check on the destination. -/
def Obligations.AddSubOfEveryPair : Prop :=
  ∀ d o : Reg,
    RunsFrom [BitVec.ofNat 8 (0x80 + 4 * d.index + o.index)] (.add d o) ∧
    RunsFrom [BitVec.ofNat 8 (0x90 + 4 * d.index + o.index)] (.sub d o) ∧
    ∀ s : State,
      (∃ t, exec (.add d o) s = .next t ∧
        AluDone d (BitVec.ofNat 8 (((s.reg d).toNat + (s.reg o).toNat) % 256)) s t) ∧
      (∃ t, exec (.sub d o) s = .next t ∧
        AluDone d (BitVec.ofNat 8 (((s.reg d).toNat + 256 - (s.reg o).toNat) % 256)) s t)

/-! ## Moves and the stack instructions -/

/-- MOV of the twelve ordered pairs: the source field is bits 3:2, the destination field bits 1:0. -/
def Obligations.MovCopiesRegister : Prop :=
  ∀ d q : Reg, d ≠ q → RunsFrom [BitVec.ofNat 8 (0x60 + 4 * q.index + d.index)] (.mov d q) ∧
    ∀ s : State, ∃ t, exec (.mov d q) s = .next t ∧ RegDone d (s.reg q) s.sp s t

/-- PUSH of each register: one RAM byte, and SP up by one. -/
def Obligations.PushStoresRegister : Prop :=
  ∀ r : Reg, RunsFrom [BitVec.ofNat 8 (0xB0 + r.index)] (.push r) ∧
    ∀ s : State, ∃ t, exec (.push r) s = .next t ∧
      SameRegs s t ∧ t.f = s.f ∧ t.pc = s.pc ∧ t.sp.toNat = (s.sp.toNat + 1) % 256 ∧ SameElse s t ∧
      ∀ i, memGet t.ram i = if i = 0x7F00 + s.sp.toNat then s.reg r else memGet s.ram i

/-- POP of each register: SP down by one, then the byte it points at; the byte stays in RAM. PEEK: the byte SP points at,
the next free slot; SP stays. -/
def Obligations.PopAndPeekLoadRegister : Prop :=
  ∀ r : Reg, RunsFrom [BitVec.ofNat 8 (0x30 + 4 * r.index)] (.pop r) ∧ RunsFrom [BitVec.ofNat 8 (0x31 + 4 * r.index)] (.peek r) ∧
    ∀ s : State,
      (∃ t, exec (.pop r) s = .next t ∧ RegDone r (memGet s.ram (0x7F00 + (s.sp.toNat + 255) % 256)) (s.sp - 1) s t) ∧
      (∃ t, exec (.peek r) s = .next t ∧ RegDone r (memGet s.ram (0x7F00 + s.sp.toNat)) s.sp s t)

/-! ## Stores -/

/-- STI A and STI B: a write of the register through the address decoder at Y x 256 + X. -/
def Obligations.StiStoresIndirect : Prop :=
  RunsFrom [0x40] .stiA ∧ RunsFrom [0x41] .stiB ∧
  ∀ s : State, s.indirectAddr.toNat = s.y.toNat * 256 + s.x.toNat ∧
    (∃ t, exec .stiA s = .next t ∧ StoreDone s.indirectAddr s.a s t) ∧
    (∃ t, exec .stiB s = .next t ∧ StoreDone s.indirectAddr s.b s t)

/-- ST of each register: a write through the address decoder at the operand, low byte first in the instruction. -/
def Obligations.StStoresAbsolute : Prop :=
  ∀ (r : Reg) (lo hi : Byte), RunsFrom [BitVec.ofNat 8 (0xC0 + r.index), lo, hi] (.st r (hi ++ lo)) ∧
    ∀ (addr : Addr) (s : State), ∃ t, exec (.st r addr) s = .next t ∧ StoreDone addr (s.reg r) s t

/-- A store into RAM is what the next fetch at that address reads (one clause of R223 and R1509). -/
def Obligations.StoreIsFetchedNext : Prop :=
  ∀ (r : Reg) (addr : Addr) (s t : State), addr.toNat ≤ 0x7FFF → exec (.st r addr) s = .next t →
    (fetchByte (t.setPc addr)).1 = s.reg r

/-! ## Control transfers, 0x70 to 0x76 -/

/-- JMP: PC becomes the operand, low byte first in the instruction. -/
def Obligations.JmpSetsPc : Prop :=
  ∀ lo hi : Byte, RunsFrom [0x70, lo, hi] (.jmp (hi ++ lo)) ∧
    ∀ (addr : Addr) (s : State), ∃ t, exec (.jmp addr) s = .next t ∧ JumpDone addr s.sp s t

/-- JSR: a call. -/
def Obligations.JsrCalls : Prop :=
  ∀ lo hi : Byte, RunsFrom [0x71, lo, hi] (.jsr (hi ++ lo)) ∧
    ∀ (addr : Addr) (s : State), ∃ t, exec (.jsr addr) s = .next t ∧ CallDone addr s t

/-- RET: PC from the two bytes below SP, the high byte the nearer; SP down by two. -/
def Obligations.RetReturns : Prop :=
  RunsFrom [0x72] .ret ∧
  ∀ s : State, ∃ t, exec .ret s = .next t ∧
    JumpDone (memGet s.ram (0x7F00 + (s.sp - 1).toNat) ++ memGet s.ram (0x7F00 + (s.sp - 2).toNat)) (s.sp - 2) s t

/-- JSE and JSN: a call if Z is 1, or 0; else nothing. Bit 0 of F alone decides. -/
def Obligations.ConditionalCallsTestZero : Prop :=
  ∀ lo hi : Byte, RunsFrom [0x73, lo, hi] (.jse (hi ++ lo)) ∧ RunsFrom [0x74, lo, hi] (.jsn (hi ++ lo)) ∧
    ∀ (addr : Addr) (s : State),
      (∃ t, exec (.jse addr) s = .next t ∧ if s.f.getLsbD 0 = true then CallDone addr s t else t = s) ∧
      (∃ t, exec (.jsn addr) s = .next t ∧ if s.f.getLsbD 0 = true then t = s else CallDone addr s t)

/-- BNE and BEQ: a jump if Z is 0, or 1; else nothing. Bit 0 of F alone decides. -/
def Obligations.BranchesTestZero : Prop :=
  ∀ lo hi : Byte, RunsFrom [0x75, lo, hi] (.bne (hi ++ lo)) ∧ RunsFrom [0x76, lo, hi] (.beq (hi ++ lo)) ∧
    ∀ (addr : Addr) (s : State),
      (∃ t, exec (.bne addr) s = .next t ∧ if s.f.getLsbD 0 = true then t = s else JumpDone addr s.sp s t) ∧
      (∃ t, exec (.beq addr) s = .next t ∧ if s.f.getLsbD 0 = true then JumpDone addr s.sp s t else t = s)

/-! ## Whole-machine rules -/

/-- R505, R108: the flag check runs for exactly the 56 opcodes, on the register `op[3:2]`; besides it, only the clears and
SEZ write F, one bit each. -/
def Obligations.WritersOfFlags : Prop :=
  ∀ (i : Instr) (s t : State), i.wf = true → exec i s = .next t →
    if isFlagCheckOp (opcodeOf i).toNat then FlagsChecked s t (t.reg (regAt ((opcodeOf i).toNat / 4 % 4)))
    else if i = .clc then ∀ k, t.f.getLsbD k = (s.f.getLsbD k && k != 2)
    else if i = .cln then ∀ k, t.f.getLsbD k = (s.f.getLsbD k && k != 1)
    else if i = .clz then ∀ k, t.f.getLsbD k = (s.f.getLsbD k && k != 0)
    else if i = .clv then ∀ k, t.f.getLsbD k = (s.f.getLsbD k && k != 3)
    else if [0xD0, 0xD5, 0xDA, 0xDF].contains (opcodeOf i).toNat then ∀ k, t.f.getLsbD k = (s.f.getLsbD k || k == 0)
    else t.f = s.f

/-- An instruction writes at most the one general register its opcode names (the writers listed in R104). -/
def Obligations.WritersOfRegisters : Prop :=
  ∀ (i : Instr) (s t : State) (q : Reg), i.wf = true → exec i s = .next t → t.reg q ≠ s.reg q →
    writtenReg (opcodeOf i).toNat = some q

/-- Only the stack instructions move SP (the users listed in R113), each by its own amount modulo 2^8. -/
def Obligations.WritersOfStackPointer : Prop :=
  ∀ (i : Instr) (s t : State), exec i s = .next t → t.sp = s.sp + s.stackMove i

/-- A step changes no RAM byte but those its instruction stores to: the addressed cell of STI and ST, the slot of a push,
the two slots of a call. -/
def Obligations.WritersOfRam : Prop :=
  ∀ (i : Instr) (s t : State) (k : Nat), exec i s = .next t → memGet t.ram k ≠ memGet s.ram k →
    k < 0x8000 ∧
    ((∃ addr, s.storeAddr i = some addr ∧ k = addr.toNat) ∨
     (s.stackMove i = 1 ∧ k = stackAddr s.sp) ∨
     (s.stackMove i = 2 ∧ (k = stackAddr s.sp ∨ k = stackAddr (s.sp + 1))))

/-- A page-select register changes only by a store to its own address. -/
def Obligations.WritersOfPageRegisters : Prop :=
  ∀ s t : State, step s = .next t →
    (t.mpL ≠ s.mpL → (fetchInstr s).2.storeAddr (fetchInstr s).1 = some 0xFFFA) ∧
    (t.mpH ≠ s.mpH → (fetchInstr s).2.storeAddr (fetchInstr s).1 = some 0xFFFB)

/-- ROM never changes: no step writes it, and so no run does. -/
def Obligations.RomNeverChanges : Prop :=
  ∀ (s t : State) (n : Nat), cycles n s = .next t → t.rom = s.rom

/-- R1403: a cycle's events, in the order of its accesses: a device read for each byte fetched from a port, in address
order, then at most one event of a store, which only STI and ST make: a device write at a port, a report at a ROM address;
so at most one ReadOnlyViolation. -/
def Obligations.EventsOfCycle : Prop :=
  ∀ s t : State, s.run = .running → step s = .next t → ∃ reads data : List Event,
    t.trace = s.trace ++ (reads ++ data) ∧ eventsSince s t = reads ++ data ∧
    reads.map readPort =
      (((List.range (fetchInstr s).1.length).map fun k => s.pc + BitVec.ofNat 16 k).filter
        fun a => targetOf a == .device).map some ∧
    data.length ≤ 1 ∧
    ∀ e ∈ data, ∃ addr v, (fetchInstr s).2.storeAddr (fetchInstr s).1 = some addr ∧
      ((targetOf addr = .device ∧ e = .devWrite addr v) ∨ (targetOf addr = .rom ∧ e = .readOnlyViolation addr v))

/-- R112: a cycle keeps F[7:4], clears F[2] only by CLC and F[3] only by CLV, and sets none of them; so in every state
reached from reset, with any image, F is one of 0x00 to 0x03. -/
def Obligations.ReservedFlagsStayClear : Prop :=
  (∀ s t : State, step s = .next t → ∀ k, 2 ≤ k →
    t.f.getLsbD k = s.f.getLsbD k ∨
    (t.f.getLsbD k = false ∧ ((k = 2 ∧ (fetchInstr s).1 = .clc) ∨ (k = 3 ∧ (fetchInstr s).1 = .clv)))) ∧
  ∀ (ramImage romImage : List Host.Cell) (n : Nat) (t : State),
    cycles n (State.boot ramImage romImage) = .next t → t.f.toNat ≤ 3

/-- The model's invariant (canonical memory, clean reserved flags) is kept by every step, from every state that has it. -/
def Obligations.StepKeepsInvariant : Prop :=
  ∀ s t : State, s.inv = true → step s = .next t → t.inv = true

/-- `State.withFetchWord` (log 8) makes the next step run the instruction that the decoder reads from the table word. -/
def Obligations.FetchWordIsRunNext : Prop :=
  ∀ (s : State) (nbits w : Nat) (i : Instr), decodeTableWord nbits w = some i →
    step (s.withFetchWord nbits w) =
      exec i (((s.withFetchWord nbits w).setPc ((s.withFetchWord nbits w).pc + BitVec.ofNat 16 i.length)).setIr (opcodeOf i))
end

