-- ==== Sys2Proof/Laws/Encoding.lean ====
section
/-! SUPPORT. Every constructor's opcode byte as a number, so that no proof reduces a field layout under an operand. -/

namespace Sys2Proof

@[simp] theorem opcodeOf_nop : opcodeOf .nop = 0x00#8 := rfl
@[simp] theorem opcodeOf_rst : opcodeOf .rst = 0x01#8 := rfl
@[simp] theorem opcodeOf_hlt : opcodeOf .hlt = 0x02#8 := rfl
@[simp] theorem opcodeOf_brk : opcodeOf .brk = 0x03#8 := rfl
@[simp] theorem opcodeOf_ctn : opcodeOf .ctn = 0x04#8 := rfl
@[simp] theorem opcodeOf_clc : opcodeOf .clc = 0x05#8 := rfl
@[simp] theorem opcodeOf_cln : opcodeOf .cln = 0x06#8 := rfl
@[simp] theorem opcodeOf_clz : opcodeOf .clz = 0x07#8 := rfl
@[simp] theorem opcodeOf_clv : opcodeOf .clv = 0x08#8 := rfl
@[simp] theorem opcodeOf_rolA : opcodeOf .rolA = 0x10#8 := rfl
@[simp] theorem opcodeOf_rorA : opcodeOf .rorA = 0x11#8 := rfl
@[simp] theorem opcodeOf_adiA (imm : Byte) : opcodeOf (.adiA imm) = 0x12#8 := rfl
@[simp] theorem opcodeOf_sbiA (imm : Byte) : opcodeOf (.sbiA imm) = 0x13#8 := rfl
@[simp] theorem opcodeOf_rolB : opcodeOf .rolB = 0x14#8 := rfl
@[simp] theorem opcodeOf_rorB : opcodeOf .rorB = 0x15#8 := rfl
@[simp] theorem opcodeOf_adiB (imm : Byte) : opcodeOf (.adiB imm) = 0x16#8 := rfl
@[simp] theorem opcodeOf_sbiB (imm : Byte) : opcodeOf (.sbiB imm) = 0x17#8 := rfl
@[simp] theorem opcodeOf_rolX : opcodeOf .rolX = 0x18#8 := rfl
@[simp] theorem opcodeOf_rorX : opcodeOf .rorX = 0x19#8 := rfl
@[simp] theorem opcodeOf_adiX (imm : Byte) : opcodeOf (.adiX imm) = 0x1A#8 := rfl
@[simp] theorem opcodeOf_sbiX (imm : Byte) : opcodeOf (.sbiX imm) = 0x1B#8 := rfl
@[simp] theorem opcodeOf_rolY : opcodeOf .rolY = 0x1C#8 := rfl
@[simp] theorem opcodeOf_rorY : opcodeOf .rorY = 0x1D#8 := rfl
@[simp] theorem opcodeOf_adiY (imm : Byte) : opcodeOf (.adiY imm) = 0x1E#8 := rfl
@[simp] theorem opcodeOf_sbiY (imm : Byte) : opcodeOf (.sbiY imm) = 0x1F#8 := rfl
@[simp] theorem opcodeOf_incA : opcodeOf .incA = 0x20#8 := rfl
@[simp] theorem opcodeOf_decA : opcodeOf .decA = 0x21#8 := rfl
@[simp] theorem opcodeOf_incB : opcodeOf .incB = 0x24#8 := rfl
@[simp] theorem opcodeOf_decB : opcodeOf .decB = 0x25#8 := rfl
@[simp] theorem opcodeOf_incX : opcodeOf .incX = 0x28#8 := rfl
@[simp] theorem opcodeOf_decX : opcodeOf .decX = 0x29#8 := rfl
@[simp] theorem opcodeOf_incY : opcodeOf .incY = 0x2C#8 := rfl
@[simp] theorem opcodeOf_decY : opcodeOf .decY = 0x2D#8 := rfl
@[simp] theorem opcodeOf_popA : opcodeOf .popA = 0x30#8 := rfl
@[simp] theorem opcodeOf_peekA : opcodeOf .peekA = 0x31#8 := rfl
@[simp] theorem opcodeOf_popB : opcodeOf .popB = 0x34#8 := rfl
@[simp] theorem opcodeOf_peekB : opcodeOf .peekB = 0x35#8 := rfl
@[simp] theorem opcodeOf_popX : opcodeOf .popX = 0x38#8 := rfl
@[simp] theorem opcodeOf_peekX : opcodeOf .peekX = 0x39#8 := rfl
@[simp] theorem opcodeOf_popY : opcodeOf .popY = 0x3C#8 := rfl
@[simp] theorem opcodeOf_peekY : opcodeOf .peekY = 0x3D#8 := rfl
@[simp] theorem opcodeOf_stiA : opcodeOf .stiA = 0x40#8 := rfl
@[simp] theorem opcodeOf_stiB : opcodeOf .stiB = 0x41#8 := rfl
@[simp] theorem opcodeOf_movBA : opcodeOf .movBA = 0x61#8 := rfl
@[simp] theorem opcodeOf_movXA : opcodeOf .movXA = 0x62#8 := rfl
@[simp] theorem opcodeOf_movYA : opcodeOf .movYA = 0x63#8 := rfl
@[simp] theorem opcodeOf_movAB : opcodeOf .movAB = 0x64#8 := rfl
@[simp] theorem opcodeOf_movXB : opcodeOf .movXB = 0x66#8 := rfl
@[simp] theorem opcodeOf_movYB : opcodeOf .movYB = 0x67#8 := rfl
@[simp] theorem opcodeOf_movAX : opcodeOf .movAX = 0x68#8 := rfl
@[simp] theorem opcodeOf_movBX : opcodeOf .movBX = 0x69#8 := rfl
@[simp] theorem opcodeOf_movYX : opcodeOf .movYX = 0x6B#8 := rfl
@[simp] theorem opcodeOf_movAY : opcodeOf .movAY = 0x6C#8 := rfl
@[simp] theorem opcodeOf_movBY : opcodeOf .movBY = 0x6D#8 := rfl
@[simp] theorem opcodeOf_movXY : opcodeOf .movXY = 0x6E#8 := rfl
@[simp] theorem opcodeOf_jmp (addr : Addr) : opcodeOf (.jmp addr) = 0x70#8 := rfl
@[simp] theorem opcodeOf_jsr (addr : Addr) : opcodeOf (.jsr addr) = 0x71#8 := rfl
@[simp] theorem opcodeOf_ret : opcodeOf .ret = 0x72#8 := rfl
@[simp] theorem opcodeOf_jse (addr : Addr) : opcodeOf (.jse addr) = 0x73#8 := rfl
@[simp] theorem opcodeOf_jsn (addr : Addr) : opcodeOf (.jsn addr) = 0x74#8 := rfl
@[simp] theorem opcodeOf_bne (addr : Addr) : opcodeOf (.bne addr) = 0x75#8 := rfl
@[simp] theorem opcodeOf_beq (addr : Addr) : opcodeOf (.beq addr) = 0x76#8 := rfl
@[simp] theorem opcodeOf_addAA : opcodeOf .addAA = 0x80#8 := rfl
@[simp] theorem opcodeOf_addAB : opcodeOf .addAB = 0x81#8 := rfl
@[simp] theorem opcodeOf_addAX : opcodeOf .addAX = 0x82#8 := rfl
@[simp] theorem opcodeOf_addAY : opcodeOf .addAY = 0x83#8 := rfl
@[simp] theorem opcodeOf_addBA : opcodeOf .addBA = 0x84#8 := rfl
@[simp] theorem opcodeOf_addBB : opcodeOf .addBB = 0x85#8 := rfl
@[simp] theorem opcodeOf_addBX : opcodeOf .addBX = 0x86#8 := rfl
@[simp] theorem opcodeOf_addBY : opcodeOf .addBY = 0x87#8 := rfl
@[simp] theorem opcodeOf_addXA : opcodeOf .addXA = 0x88#8 := rfl
@[simp] theorem opcodeOf_addXB : opcodeOf .addXB = 0x89#8 := rfl
@[simp] theorem opcodeOf_addXX : opcodeOf .addXX = 0x8A#8 := rfl
@[simp] theorem opcodeOf_addXY : opcodeOf .addXY = 0x8B#8 := rfl
@[simp] theorem opcodeOf_addYA : opcodeOf .addYA = 0x8C#8 := rfl
@[simp] theorem opcodeOf_addYB : opcodeOf .addYB = 0x8D#8 := rfl
@[simp] theorem opcodeOf_addYX : opcodeOf .addYX = 0x8E#8 := rfl
@[simp] theorem opcodeOf_addYY : opcodeOf .addYY = 0x8F#8 := rfl
@[simp] theorem opcodeOf_subAA : opcodeOf .subAA = 0x90#8 := rfl
@[simp] theorem opcodeOf_subAB : opcodeOf .subAB = 0x91#8 := rfl
@[simp] theorem opcodeOf_subAX : opcodeOf .subAX = 0x92#8 := rfl
@[simp] theorem opcodeOf_subAY : opcodeOf .subAY = 0x93#8 := rfl
@[simp] theorem opcodeOf_subBA : opcodeOf .subBA = 0x94#8 := rfl
@[simp] theorem opcodeOf_subBB : opcodeOf .subBB = 0x95#8 := rfl
@[simp] theorem opcodeOf_subBX : opcodeOf .subBX = 0x96#8 := rfl
@[simp] theorem opcodeOf_subBY : opcodeOf .subBY = 0x97#8 := rfl
@[simp] theorem opcodeOf_subXA : opcodeOf .subXA = 0x98#8 := rfl
@[simp] theorem opcodeOf_subXB : opcodeOf .subXB = 0x99#8 := rfl
@[simp] theorem opcodeOf_subXX : opcodeOf .subXX = 0x9A#8 := rfl
@[simp] theorem opcodeOf_subXY : opcodeOf .subXY = 0x9B#8 := rfl
@[simp] theorem opcodeOf_subYA : opcodeOf .subYA = 0x9C#8 := rfl
@[simp] theorem opcodeOf_subYB : opcodeOf .subYB = 0x9D#8 := rfl
@[simp] theorem opcodeOf_subYX : opcodeOf .subYX = 0x9E#8 := rfl
@[simp] theorem opcodeOf_subYY : opcodeOf .subYY = 0x9F#8 := rfl
@[simp] theorem opcodeOf_pushA : opcodeOf .pushA = 0xB0#8 := rfl
@[simp] theorem opcodeOf_pushB : opcodeOf .pushB = 0xB1#8 := rfl
@[simp] theorem opcodeOf_pushX : opcodeOf .pushX = 0xB2#8 := rfl
@[simp] theorem opcodeOf_pushY : opcodeOf .pushY = 0xB3#8 := rfl
@[simp] theorem opcodeOf_stA (addr : Addr) : opcodeOf (.stA addr) = 0xC0#8 := rfl
@[simp] theorem opcodeOf_stB (addr : Addr) : opcodeOf (.stB addr) = 0xC1#8 := rfl
@[simp] theorem opcodeOf_stX (addr : Addr) : opcodeOf (.stX addr) = 0xC2#8 := rfl
@[simp] theorem opcodeOf_stY (addr : Addr) : opcodeOf (.stY addr) = 0xC3#8 := rfl
@[simp] theorem opcodeOf_sezA : opcodeOf .sezA = 0xD0#8 := rfl
@[simp] theorem opcodeOf_sezB : opcodeOf .sezB = 0xD5#8 := rfl
@[simp] theorem opcodeOf_sezX : opcodeOf .sezX = 0xDA#8 := rfl
@[simp] theorem opcodeOf_sezY : opcodeOf .sezY = 0xDF#8 := rfl
@[simp] theorem opcodeOf_unmapped (op : Byte) : opcodeOf (.unmapped op) = op := rfl

end Sys2Proof
end

