-- ==== Sys2Proof/Laws/Memory.lean ====
section
/-! SUPPORT. The laws of sparse memory: a read after a write, and the canonical form. -/

namespace Sys2Proof.Machine

@[simp] theorem memGet_nil (i : Nat) : memGet [] i = unlisted := rfl

theorem memGet_cons (k : Nat) (v : Byte) (m : Memory) (i : Nat) :
    memGet ((k, v) :: m) i = if k = i then v else memGet m i := rfl

theorem memGet_memInsert (m : Memory) (i j : Nat) (v : Byte) :
    memGet (memInsert m i v) j = if i = j then v else memGet m j := by
  induction m with
  | nil => simp [memInsert, memGet_cons]
  | cons c m ih =>
    obtain ⟨k, w⟩ := c
    unfold memInsert
    split
    · rw [memGet_cons]
    · split
      · subst i
        simp only [memGet_cons]
        split <;> rfl
      · rw [memGet_cons, ih, memGet_cons]
        split <;> split <;> first | rfl | omega

theorem memGet_remove (m : Memory) (i j : Nat) :
    memGet (m.filter fun c => c.1 != i) j = if i = j then unlisted else memGet m j := by
  induction m with
  | nil => simp
  | cons c m ih =>
    obtain ⟨k, w⟩ := c
    rw [List.filter_cons]
    by_cases hk : k = i
    · subst hk
      simp only [bne_self_eq_false, Bool.false_eq_true, if_false, ih, memGet_cons]
      split <;> rfl
    · have : (k != i) = true := by simpa using hk
      simp only [this, if_true, memGet_cons, ih]
      split <;> split <;> first | rfl | omega

/-- What any address reads as after a write, in any memory (20_memory.md R209). -/
theorem memGet_memSet (m : Memory) (i j : Nat) (v : Byte) :
    memGet (memSet m i v) j = if i = j then v else memGet m j := by
  unfold memSet
  split
  · subst v
    exact memGet_remove m i j
  · exact memGet_memInsert m i j v

@[simp] theorem memGet_memSet_self (m : Memory) (i : Nat) (v : Byte) : memGet (memSet m i v) i = v := by
  simp [memGet_memSet]

theorem memGet_memSet_ne (m : Memory) {i j : Nat} (h : i ≠ j) (v : Byte) : memGet (memSet m i v) j = memGet m j := by
  simp [memGet_memSet, h]

/-! ## The canonical form -/

@[simp] theorem memWfFrom_nil (lo size : Nat) : memWfFrom lo size [] = true := rfl

theorem memWfFrom_cons (lo size k : Nat) (v : Byte) (m : Memory) :
    memWfFrom lo size ((k, v) :: m) = true ↔ lo ≤ k ∧ k < size ∧ v ≠ unlisted ∧ memWfFrom (k + 1) size m = true := by
  simp [memWfFrom, and_assoc]

theorem memWfFrom_mono {lo lo' size : Nat} {m : Memory} (h : lo' ≤ lo) (hm : memWfFrom lo size m = true) :
    memWfFrom lo' size m = true := by
  cases m with
  | nil => rfl
  | cons c m =>
    obtain ⟨k, v⟩ := c
    rw [memWfFrom_cons] at hm ⊢
    exact ⟨by omega, hm.2⟩

/-- Below its first admitted address a canonical memory lists nothing. -/
theorem memGet_of_lt {lo size : Nat} {m : Memory} (hm : memWfFrom lo size m = true) {i : Nat} (h : i < lo) :
    memGet m i = unlisted := by
  induction m generalizing lo with
  | nil => rfl
  | cons c m ih =>
    obtain ⟨k, v⟩ := c
    rw [memWfFrom_cons] at hm
    rw [memGet_cons, if_neg (by omega)]
    exact ih hm.2.2.2 (by omega)

theorem memWfFrom_memInsert {lo size : Nat} {m : Memory} (hm : memWfFrom lo size m = true) {i : Nat} {v : Byte}
    (hlo : lo ≤ i) (hi : i < size) (hv : v ≠ unlisted) : memWfFrom lo size (memInsert m i v) = true := by
  induction m generalizing lo with
  | nil => exact (memWfFrom_cons ..).2 ⟨hlo, hi, hv, rfl⟩
  | cons c m ih =>
    obtain ⟨k, w⟩ := c
    have h := (memWfFrom_cons ..).1 hm
    unfold memInsert
    split
    · exact (memWfFrom_cons ..).2 ⟨hlo, hi, hv, (memWfFrom_cons ..).2 ⟨by omega, h.2⟩⟩
    · split
      · subst i
        exact (memWfFrom_cons ..).2 ⟨hlo, hi, hv, h.2.2.2⟩
      · exact (memWfFrom_cons ..).2 ⟨h.1, h.2.1, h.2.2.1, ih h.2.2.2 (by omega)⟩

theorem memWfFrom_remove {lo size : Nat} {m : Memory} (hm : memWfFrom lo size m = true) (i : Nat) :
    memWfFrom lo size (m.filter fun c => c.1 != i) = true := by
  induction m generalizing lo with
  | nil => rfl
  | cons c m ih =>
    obtain ⟨k, w⟩ := c
    have h := (memWfFrom_cons ..).1 hm
    rw [List.filter_cons]
    split
    · exact (memWfFrom_cons ..).2 ⟨h.1, h.2.1, h.2.2.1, ih h.2.2.2⟩
    · exact memWfFrom_mono (by omega) (ih h.2.2.2)

/-- Every write inside the address range keeps the canonical form. -/
theorem memWf_memSet {size : Nat} {m : Memory} (hm : memWf size m = true) {i : Nat} (hi : i < size) (v : Byte) :
    memWf size (memSet m i v) = true := by
  unfold memSet
  split
  · exact memWfFrom_remove hm i
  · rename_i hv
    exact memWfFrom_memInsert hm (by omega) hi hv

end Sys2Proof.Machine
end

