-- ==== Sys2Proof/Laws/State.lean ====
section
/-! SUPPORT. One lemma per field per update of the state, all true by computation: no later proof unfolds a record update.
Beside them, the laws of the register accessor. -/

namespace Sys2Proof.Machine

variable (s : State)

/-! setF -/

@[simp] theorem setF_a (v : Byte) : (s.setF v).a = s.a := rfl
@[simp] theorem setF_b (v : Byte) : (s.setF v).b = s.b := rfl
@[simp] theorem setF_x (v : Byte) : (s.setF v).x = s.x := rfl
@[simp] theorem setF_y (v : Byte) : (s.setF v).y = s.y := rfl
@[simp] theorem setF_f (v : Byte) : (s.setF v).f = v := rfl
@[simp] theorem setF_sp (v : Byte) : (s.setF v).sp = s.sp := rfl
@[simp] theorem setF_ir (v : Byte) : (s.setF v).ir = s.ir := rfl
@[simp] theorem setF_pc (v : Byte) : (s.setF v).pc = s.pc := rfl
@[simp] theorem setF_mpL (v : Byte) : (s.setF v).mpL = s.mpL := rfl
@[simp] theorem setF_mpH (v : Byte) : (s.setF v).mpH = s.mpH := rfl
@[simp] theorem setF_run (v : Byte) : (s.setF v).run = s.run := rfl
@[simp] theorem setF_ram (v : Byte) : (s.setF v).ram = s.ram := rfl
@[simp] theorem setF_rom (v : Byte) : (s.setF v).rom = s.rom := rfl
@[simp] theorem setF_trace (v : Byte) : (s.setF v).trace = s.trace := rfl
@[simp] theorem setF_deviceInput (v : Byte) : (s.setF v).deviceInput = s.deviceInput := rfl
@[simp] theorem setF_draws (v : Byte) : (s.setF v).draws = s.draws := rfl
@[simp] theorem setF_reg (v : Byte) (r : Reg) : (s.setF v).reg r = s.reg r := by cases r <;> rfl

/-! setSp -/

@[simp] theorem setSp_a (v : Byte) : (s.setSp v).a = s.a := rfl
@[simp] theorem setSp_b (v : Byte) : (s.setSp v).b = s.b := rfl
@[simp] theorem setSp_x (v : Byte) : (s.setSp v).x = s.x := rfl
@[simp] theorem setSp_y (v : Byte) : (s.setSp v).y = s.y := rfl
@[simp] theorem setSp_f (v : Byte) : (s.setSp v).f = s.f := rfl
@[simp] theorem setSp_sp (v : Byte) : (s.setSp v).sp = v := rfl
@[simp] theorem setSp_ir (v : Byte) : (s.setSp v).ir = s.ir := rfl
@[simp] theorem setSp_pc (v : Byte) : (s.setSp v).pc = s.pc := rfl
@[simp] theorem setSp_mpL (v : Byte) : (s.setSp v).mpL = s.mpL := rfl
@[simp] theorem setSp_mpH (v : Byte) : (s.setSp v).mpH = s.mpH := rfl
@[simp] theorem setSp_run (v : Byte) : (s.setSp v).run = s.run := rfl
@[simp] theorem setSp_ram (v : Byte) : (s.setSp v).ram = s.ram := rfl
@[simp] theorem setSp_rom (v : Byte) : (s.setSp v).rom = s.rom := rfl
@[simp] theorem setSp_trace (v : Byte) : (s.setSp v).trace = s.trace := rfl
@[simp] theorem setSp_deviceInput (v : Byte) : (s.setSp v).deviceInput = s.deviceInput := rfl
@[simp] theorem setSp_draws (v : Byte) : (s.setSp v).draws = s.draws := rfl
@[simp] theorem setSp_reg (v : Byte) (r : Reg) : (s.setSp v).reg r = s.reg r := by cases r <;> rfl

/-! setIr -/

@[simp] theorem setIr_a (v : Byte) : (s.setIr v).a = s.a := rfl
@[simp] theorem setIr_b (v : Byte) : (s.setIr v).b = s.b := rfl
@[simp] theorem setIr_x (v : Byte) : (s.setIr v).x = s.x := rfl
@[simp] theorem setIr_y (v : Byte) : (s.setIr v).y = s.y := rfl
@[simp] theorem setIr_f (v : Byte) : (s.setIr v).f = s.f := rfl
@[simp] theorem setIr_sp (v : Byte) : (s.setIr v).sp = s.sp := rfl
@[simp] theorem setIr_ir (v : Byte) : (s.setIr v).ir = v := rfl
@[simp] theorem setIr_pc (v : Byte) : (s.setIr v).pc = s.pc := rfl
@[simp] theorem setIr_mpL (v : Byte) : (s.setIr v).mpL = s.mpL := rfl
@[simp] theorem setIr_mpH (v : Byte) : (s.setIr v).mpH = s.mpH := rfl
@[simp] theorem setIr_run (v : Byte) : (s.setIr v).run = s.run := rfl
@[simp] theorem setIr_ram (v : Byte) : (s.setIr v).ram = s.ram := rfl
@[simp] theorem setIr_rom (v : Byte) : (s.setIr v).rom = s.rom := rfl
@[simp] theorem setIr_trace (v : Byte) : (s.setIr v).trace = s.trace := rfl
@[simp] theorem setIr_deviceInput (v : Byte) : (s.setIr v).deviceInput = s.deviceInput := rfl
@[simp] theorem setIr_draws (v : Byte) : (s.setIr v).draws = s.draws := rfl
@[simp] theorem setIr_reg (v : Byte) (r : Reg) : (s.setIr v).reg r = s.reg r := by cases r <;> rfl

/-! setPc -/

@[simp] theorem setPc_a (v : Addr) : (s.setPc v).a = s.a := rfl
@[simp] theorem setPc_b (v : Addr) : (s.setPc v).b = s.b := rfl
@[simp] theorem setPc_x (v : Addr) : (s.setPc v).x = s.x := rfl
@[simp] theorem setPc_y (v : Addr) : (s.setPc v).y = s.y := rfl
@[simp] theorem setPc_f (v : Addr) : (s.setPc v).f = s.f := rfl
@[simp] theorem setPc_sp (v : Addr) : (s.setPc v).sp = s.sp := rfl
@[simp] theorem setPc_ir (v : Addr) : (s.setPc v).ir = s.ir := rfl
@[simp] theorem setPc_pc (v : Addr) : (s.setPc v).pc = v := rfl
@[simp] theorem setPc_mpL (v : Addr) : (s.setPc v).mpL = s.mpL := rfl
@[simp] theorem setPc_mpH (v : Addr) : (s.setPc v).mpH = s.mpH := rfl
@[simp] theorem setPc_run (v : Addr) : (s.setPc v).run = s.run := rfl
@[simp] theorem setPc_ram (v : Addr) : (s.setPc v).ram = s.ram := rfl
@[simp] theorem setPc_rom (v : Addr) : (s.setPc v).rom = s.rom := rfl
@[simp] theorem setPc_trace (v : Addr) : (s.setPc v).trace = s.trace := rfl
@[simp] theorem setPc_deviceInput (v : Addr) : (s.setPc v).deviceInput = s.deviceInput := rfl
@[simp] theorem setPc_draws (v : Addr) : (s.setPc v).draws = s.draws := rfl
@[simp] theorem setPc_reg (v : Addr) (r : Reg) : (s.setPc v).reg r = s.reg r := by cases r <;> rfl

/-! setMpL -/

@[simp] theorem setMpL_a (v : Byte) : (s.setMpL v).a = s.a := rfl
@[simp] theorem setMpL_b (v : Byte) : (s.setMpL v).b = s.b := rfl
@[simp] theorem setMpL_x (v : Byte) : (s.setMpL v).x = s.x := rfl
@[simp] theorem setMpL_y (v : Byte) : (s.setMpL v).y = s.y := rfl
@[simp] theorem setMpL_f (v : Byte) : (s.setMpL v).f = s.f := rfl
@[simp] theorem setMpL_sp (v : Byte) : (s.setMpL v).sp = s.sp := rfl
@[simp] theorem setMpL_ir (v : Byte) : (s.setMpL v).ir = s.ir := rfl
@[simp] theorem setMpL_pc (v : Byte) : (s.setMpL v).pc = s.pc := rfl
@[simp] theorem setMpL_mpL (v : Byte) : (s.setMpL v).mpL = v := rfl
@[simp] theorem setMpL_mpH (v : Byte) : (s.setMpL v).mpH = s.mpH := rfl
@[simp] theorem setMpL_run (v : Byte) : (s.setMpL v).run = s.run := rfl
@[simp] theorem setMpL_ram (v : Byte) : (s.setMpL v).ram = s.ram := rfl
@[simp] theorem setMpL_rom (v : Byte) : (s.setMpL v).rom = s.rom := rfl
@[simp] theorem setMpL_trace (v : Byte) : (s.setMpL v).trace = s.trace := rfl
@[simp] theorem setMpL_deviceInput (v : Byte) : (s.setMpL v).deviceInput = s.deviceInput := rfl
@[simp] theorem setMpL_draws (v : Byte) : (s.setMpL v).draws = s.draws := rfl
@[simp] theorem setMpL_reg (v : Byte) (r : Reg) : (s.setMpL v).reg r = s.reg r := by cases r <;> rfl

/-! setMpH -/

@[simp] theorem setMpH_a (v : Byte) : (s.setMpH v).a = s.a := rfl
@[simp] theorem setMpH_b (v : Byte) : (s.setMpH v).b = s.b := rfl
@[simp] theorem setMpH_x (v : Byte) : (s.setMpH v).x = s.x := rfl
@[simp] theorem setMpH_y (v : Byte) : (s.setMpH v).y = s.y := rfl
@[simp] theorem setMpH_f (v : Byte) : (s.setMpH v).f = s.f := rfl
@[simp] theorem setMpH_sp (v : Byte) : (s.setMpH v).sp = s.sp := rfl
@[simp] theorem setMpH_ir (v : Byte) : (s.setMpH v).ir = s.ir := rfl
@[simp] theorem setMpH_pc (v : Byte) : (s.setMpH v).pc = s.pc := rfl
@[simp] theorem setMpH_mpL (v : Byte) : (s.setMpH v).mpL = s.mpL := rfl
@[simp] theorem setMpH_mpH (v : Byte) : (s.setMpH v).mpH = v := rfl
@[simp] theorem setMpH_run (v : Byte) : (s.setMpH v).run = s.run := rfl
@[simp] theorem setMpH_ram (v : Byte) : (s.setMpH v).ram = s.ram := rfl
@[simp] theorem setMpH_rom (v : Byte) : (s.setMpH v).rom = s.rom := rfl
@[simp] theorem setMpH_trace (v : Byte) : (s.setMpH v).trace = s.trace := rfl
@[simp] theorem setMpH_deviceInput (v : Byte) : (s.setMpH v).deviceInput = s.deviceInput := rfl
@[simp] theorem setMpH_draws (v : Byte) : (s.setMpH v).draws = s.draws := rfl
@[simp] theorem setMpH_reg (v : Byte) (r : Reg) : (s.setMpH v).reg r = s.reg r := by cases r <;> rfl

/-! setRun -/

@[simp] theorem setRun_a (v : RunState) : (s.setRun v).a = s.a := rfl
@[simp] theorem setRun_b (v : RunState) : (s.setRun v).b = s.b := rfl
@[simp] theorem setRun_x (v : RunState) : (s.setRun v).x = s.x := rfl
@[simp] theorem setRun_y (v : RunState) : (s.setRun v).y = s.y := rfl
@[simp] theorem setRun_f (v : RunState) : (s.setRun v).f = s.f := rfl
@[simp] theorem setRun_sp (v : RunState) : (s.setRun v).sp = s.sp := rfl
@[simp] theorem setRun_ir (v : RunState) : (s.setRun v).ir = s.ir := rfl
@[simp] theorem setRun_pc (v : RunState) : (s.setRun v).pc = s.pc := rfl
@[simp] theorem setRun_mpL (v : RunState) : (s.setRun v).mpL = s.mpL := rfl
@[simp] theorem setRun_mpH (v : RunState) : (s.setRun v).mpH = s.mpH := rfl
@[simp] theorem setRun_run (v : RunState) : (s.setRun v).run = v := rfl
@[simp] theorem setRun_ram (v : RunState) : (s.setRun v).ram = s.ram := rfl
@[simp] theorem setRun_rom (v : RunState) : (s.setRun v).rom = s.rom := rfl
@[simp] theorem setRun_trace (v : RunState) : (s.setRun v).trace = s.trace := rfl
@[simp] theorem setRun_deviceInput (v : RunState) : (s.setRun v).deviceInput = s.deviceInput := rfl
@[simp] theorem setRun_draws (v : RunState) : (s.setRun v).draws = s.draws := rfl
@[simp] theorem setRun_reg (v : RunState) (r : Reg) : (s.setRun v).reg r = s.reg r := by cases r <;> rfl

/-! setRam -/

@[simp] theorem setRam_a (v : Memory) : (s.setRam v).a = s.a := rfl
@[simp] theorem setRam_b (v : Memory) : (s.setRam v).b = s.b := rfl
@[simp] theorem setRam_x (v : Memory) : (s.setRam v).x = s.x := rfl
@[simp] theorem setRam_y (v : Memory) : (s.setRam v).y = s.y := rfl
@[simp] theorem setRam_f (v : Memory) : (s.setRam v).f = s.f := rfl
@[simp] theorem setRam_sp (v : Memory) : (s.setRam v).sp = s.sp := rfl
@[simp] theorem setRam_ir (v : Memory) : (s.setRam v).ir = s.ir := rfl
@[simp] theorem setRam_pc (v : Memory) : (s.setRam v).pc = s.pc := rfl
@[simp] theorem setRam_mpL (v : Memory) : (s.setRam v).mpL = s.mpL := rfl
@[simp] theorem setRam_mpH (v : Memory) : (s.setRam v).mpH = s.mpH := rfl
@[simp] theorem setRam_run (v : Memory) : (s.setRam v).run = s.run := rfl
@[simp] theorem setRam_ram (v : Memory) : (s.setRam v).ram = v := rfl
@[simp] theorem setRam_rom (v : Memory) : (s.setRam v).rom = s.rom := rfl
@[simp] theorem setRam_trace (v : Memory) : (s.setRam v).trace = s.trace := rfl
@[simp] theorem setRam_deviceInput (v : Memory) : (s.setRam v).deviceInput = s.deviceInput := rfl
@[simp] theorem setRam_draws (v : Memory) : (s.setRam v).draws = s.draws := rfl
@[simp] theorem setRam_reg (v : Memory) (r : Reg) : (s.setRam v).reg r = s.reg r := by cases r <;> rfl

/-! setRom -/

@[simp] theorem setRom_a (v : Memory) : (s.setRom v).a = s.a := rfl
@[simp] theorem setRom_b (v : Memory) : (s.setRom v).b = s.b := rfl
@[simp] theorem setRom_x (v : Memory) : (s.setRom v).x = s.x := rfl
@[simp] theorem setRom_y (v : Memory) : (s.setRom v).y = s.y := rfl
@[simp] theorem setRom_f (v : Memory) : (s.setRom v).f = s.f := rfl
@[simp] theorem setRom_sp (v : Memory) : (s.setRom v).sp = s.sp := rfl
@[simp] theorem setRom_ir (v : Memory) : (s.setRom v).ir = s.ir := rfl
@[simp] theorem setRom_pc (v : Memory) : (s.setRom v).pc = s.pc := rfl
@[simp] theorem setRom_mpL (v : Memory) : (s.setRom v).mpL = s.mpL := rfl
@[simp] theorem setRom_mpH (v : Memory) : (s.setRom v).mpH = s.mpH := rfl
@[simp] theorem setRom_run (v : Memory) : (s.setRom v).run = s.run := rfl
@[simp] theorem setRom_ram (v : Memory) : (s.setRom v).ram = s.ram := rfl
@[simp] theorem setRom_rom (v : Memory) : (s.setRom v).rom = v := rfl
@[simp] theorem setRom_trace (v : Memory) : (s.setRom v).trace = s.trace := rfl
@[simp] theorem setRom_deviceInput (v : Memory) : (s.setRom v).deviceInput = s.deviceInput := rfl
@[simp] theorem setRom_draws (v : Memory) : (s.setRom v).draws = s.draws := rfl
@[simp] theorem setRom_reg (v : Memory) (r : Reg) : (s.setRom v).reg r = s.reg r := by cases r <;> rfl

/-! setDeviceInput -/

@[simp] theorem setDeviceInput_a (v : List Byte) : (s.setDeviceInput v).a = s.a := rfl
@[simp] theorem setDeviceInput_b (v : List Byte) : (s.setDeviceInput v).b = s.b := rfl
@[simp] theorem setDeviceInput_x (v : List Byte) : (s.setDeviceInput v).x = s.x := rfl
@[simp] theorem setDeviceInput_y (v : List Byte) : (s.setDeviceInput v).y = s.y := rfl
@[simp] theorem setDeviceInput_f (v : List Byte) : (s.setDeviceInput v).f = s.f := rfl
@[simp] theorem setDeviceInput_sp (v : List Byte) : (s.setDeviceInput v).sp = s.sp := rfl
@[simp] theorem setDeviceInput_ir (v : List Byte) : (s.setDeviceInput v).ir = s.ir := rfl
@[simp] theorem setDeviceInput_pc (v : List Byte) : (s.setDeviceInput v).pc = s.pc := rfl
@[simp] theorem setDeviceInput_mpL (v : List Byte) : (s.setDeviceInput v).mpL = s.mpL := rfl
@[simp] theorem setDeviceInput_mpH (v : List Byte) : (s.setDeviceInput v).mpH = s.mpH := rfl
@[simp] theorem setDeviceInput_run (v : List Byte) : (s.setDeviceInput v).run = s.run := rfl
@[simp] theorem setDeviceInput_ram (v : List Byte) : (s.setDeviceInput v).ram = s.ram := rfl
@[simp] theorem setDeviceInput_rom (v : List Byte) : (s.setDeviceInput v).rom = s.rom := rfl
@[simp] theorem setDeviceInput_trace (v : List Byte) : (s.setDeviceInput v).trace = s.trace := rfl
@[simp] theorem setDeviceInput_deviceInput (v : List Byte) : (s.setDeviceInput v).deviceInput = v := rfl
@[simp] theorem setDeviceInput_draws (v : List Byte) : (s.setDeviceInput v).draws = s.draws := rfl
@[simp] theorem setDeviceInput_reg (v : List Byte) (r : Reg) : (s.setDeviceInput v).reg r = s.reg r := by cases r <;> rfl

/-! setDraws -/

@[simp] theorem setDraws_a (v : Nat) : (s.setDraws v).a = s.a := rfl
@[simp] theorem setDraws_b (v : Nat) : (s.setDraws v).b = s.b := rfl
@[simp] theorem setDraws_x (v : Nat) : (s.setDraws v).x = s.x := rfl
@[simp] theorem setDraws_y (v : Nat) : (s.setDraws v).y = s.y := rfl
@[simp] theorem setDraws_f (v : Nat) : (s.setDraws v).f = s.f := rfl
@[simp] theorem setDraws_sp (v : Nat) : (s.setDraws v).sp = s.sp := rfl
@[simp] theorem setDraws_ir (v : Nat) : (s.setDraws v).ir = s.ir := rfl
@[simp] theorem setDraws_pc (v : Nat) : (s.setDraws v).pc = s.pc := rfl
@[simp] theorem setDraws_mpL (v : Nat) : (s.setDraws v).mpL = s.mpL := rfl
@[simp] theorem setDraws_mpH (v : Nat) : (s.setDraws v).mpH = s.mpH := rfl
@[simp] theorem setDraws_run (v : Nat) : (s.setDraws v).run = s.run := rfl
@[simp] theorem setDraws_ram (v : Nat) : (s.setDraws v).ram = s.ram := rfl
@[simp] theorem setDraws_rom (v : Nat) : (s.setDraws v).rom = s.rom := rfl
@[simp] theorem setDraws_trace (v : Nat) : (s.setDraws v).trace = s.trace := rfl
@[simp] theorem setDraws_deviceInput (v : Nat) : (s.setDraws v).deviceInput = s.deviceInput := rfl
@[simp] theorem setDraws_draws (v : Nat) : (s.setDraws v).draws = v := rfl
@[simp] theorem setDraws_reg (v : Nat) (r : Reg) : (s.setDraws v).reg r = s.reg r := by cases r <;> rfl

/-! emit -/

@[simp] theorem emit_a (e : Event) : (s.emit e).a = s.a := rfl
@[simp] theorem emit_b (e : Event) : (s.emit e).b = s.b := rfl
@[simp] theorem emit_x (e : Event) : (s.emit e).x = s.x := rfl
@[simp] theorem emit_y (e : Event) : (s.emit e).y = s.y := rfl
@[simp] theorem emit_f (e : Event) : (s.emit e).f = s.f := rfl
@[simp] theorem emit_sp (e : Event) : (s.emit e).sp = s.sp := rfl
@[simp] theorem emit_ir (e : Event) : (s.emit e).ir = s.ir := rfl
@[simp] theorem emit_pc (e : Event) : (s.emit e).pc = s.pc := rfl
@[simp] theorem emit_mpL (e : Event) : (s.emit e).mpL = s.mpL := rfl
@[simp] theorem emit_mpH (e : Event) : (s.emit e).mpH = s.mpH := rfl
@[simp] theorem emit_run (e : Event) : (s.emit e).run = s.run := rfl
@[simp] theorem emit_ram (e : Event) : (s.emit e).ram = s.ram := rfl
@[simp] theorem emit_rom (e : Event) : (s.emit e).rom = s.rom := rfl
@[simp] theorem emit_trace (e : Event) : (s.emit e).trace = s.trace ++ [e] := rfl
@[simp] theorem emit_deviceInput (e : Event) : (s.emit e).deviceInput = s.deviceInput := rfl
@[simp] theorem emit_draws (e : Event) : (s.emit e).draws = s.draws := rfl
@[simp] theorem emit_reg (e : Event) (r : Reg) : (s.emit e).reg r = s.reg r := by cases r <;> rfl

/-! setReg -/

@[simp] theorem setReg_f (r : Reg) (v : Byte) : (s.setReg r v).f = s.f := by cases r <;> rfl
@[simp] theorem setReg_sp (r : Reg) (v : Byte) : (s.setReg r v).sp = s.sp := by cases r <;> rfl
@[simp] theorem setReg_ir (r : Reg) (v : Byte) : (s.setReg r v).ir = s.ir := by cases r <;> rfl
@[simp] theorem setReg_pc (r : Reg) (v : Byte) : (s.setReg r v).pc = s.pc := by cases r <;> rfl
@[simp] theorem setReg_mpL (r : Reg) (v : Byte) : (s.setReg r v).mpL = s.mpL := by cases r <;> rfl
@[simp] theorem setReg_mpH (r : Reg) (v : Byte) : (s.setReg r v).mpH = s.mpH := by cases r <;> rfl
@[simp] theorem setReg_run (r : Reg) (v : Byte) : (s.setReg r v).run = s.run := by cases r <;> rfl
@[simp] theorem setReg_ram (r : Reg) (v : Byte) : (s.setReg r v).ram = s.ram := by cases r <;> rfl
@[simp] theorem setReg_rom (r : Reg) (v : Byte) : (s.setReg r v).rom = s.rom := by cases r <;> rfl
@[simp] theorem setReg_trace (r : Reg) (v : Byte) : (s.setReg r v).trace = s.trace := by cases r <;> rfl
@[simp] theorem setReg_deviceInput (r : Reg) (v : Byte) : (s.setReg r v).deviceInput = s.deviceInput := by cases r <;> rfl
@[simp] theorem setReg_draws (r : Reg) (v : Byte) : (s.setReg r v).draws = s.draws := by cases r <;> rfl

@[simp] theorem setReg_reg_self (r : Reg) (v : Byte) : (s.setReg r v).reg r = v := by cases r <;> rfl

/-- Writing one register leaves the others. -/
theorem setReg_reg_ne {q r : Reg} (h : q ≠ r) (v : Byte) : (s.setReg r v).reg q = s.reg q := by
  cases q <;> cases r <;> first | rfl | exact absurd rfl h

/-- What a register holds after a register write. -/
theorem setReg_reg (q r : Reg) (v : Byte) : (s.setReg r v).reg q = if q = r then v else s.reg q := by
  cases q <;> cases r <;> rfl

/-- Two states are equal when every register and every other field agree. -/
theorem State.ext_reg {s t : State} (hreg : ∀ r, t.reg r = s.reg r) (hf : t.f = s.f) (hsp : t.sp = s.sp) (hir : t.ir = s.ir)
    (hpc : t.pc = s.pc) (hl : t.mpL = s.mpL) (hh : t.mpH = s.mpH) (hrun : t.run = s.run) (hram : t.ram = s.ram)
    (hrom : t.rom = s.rom) (htr : t.trace = s.trace) (hdi : t.deviceInput = s.deviceInput) (hd : t.draws = s.draws) :
    t = s := by
  have ha := hreg .A
  have hb := hreg .B
  have hx := hreg .X
  have hy := hreg .Y
  cases s
  cases t
  simp_all [State.reg]

end Sys2Proof.Machine
end

