-- ==== Sys2Proof/Laws/Ops.lean ====
section
/-! SUPPORT. For each shared operation, once, what it can do: the address decoder, the stack, calls and the fetch. Later
proofs cite these and unfold none of the operations. -/

namespace Sys2Proof.Machine

variable (s : State)

/-! ## The address map -/

theorem targetOf_ram {addr : Addr} (h : addr.toNat < 0x8000) : targetOf addr = .ram := by simp [targetOf, h]

theorem targetOf_rom_window {addr : Addr} (h : 0x8000 ≤ addr.toNat) (h' : addr.toNat < 0xFFF0) : targetOf addr = .rom := by
  simp [targetOf, h', show ¬ addr.toNat < 0x8000 by omega]

theorem targetOf_device {addr : Addr} (h : 0xFFF0 ≤ addr.toNat) (h' : addr.toNat < 0xFFFA) : targetOf addr = .device := by
  simp [targetOf, h', show ¬ addr.toNat < 0x8000 by omega, show ¬ addr.toNat < 0xFFF0 by omega]

@[simp] theorem targetOf_pageLow : targetOf 0xFFFA#16 = .pageLow := by decide

@[simp] theorem targetOf_pageHigh : targetOf 0xFFFB#16 = .pageHigh := by decide

theorem targetOf_rom_top {addr : Addr} (h : 0xFFFC ≤ addr.toNat) : targetOf addr = .rom := by
  simp [targetOf, show ¬ addr.toNat < 0x8000 by omega, show ¬ addr.toNat < 0xFFF0 by omega,
    show ¬ addr.toNat < 0xFFFA by omega, show ¬ addr.toNat = 0xFFFA by omega, show ¬ addr.toNat = 0xFFFB by omega]

/-- Every address is in exactly one row of the map, and the row says its target. -/
theorem targetOf_cases (addr : Addr) :
    (targetOf addr = .ram ∧ addr.toNat < 0x8000) ∨
    (targetOf addr = .rom ∧ 0x8000 ≤ addr.toNat ∧ addr.toNat < 0xFFF0) ∨
    (targetOf addr = .device ∧ 0xFFF0 ≤ addr.toNat ∧ addr.toNat < 0xFFFA) ∨
    (targetOf addr = .pageLow ∧ addr = 0xFFFA) ∨
    (targetOf addr = .pageHigh ∧ addr = 0xFFFB) ∨
    (targetOf addr = .rom ∧ 0xFFFC ≤ addr.toNat) := by
  unfold targetOf
  by_cases h1 : addr.toNat < 0x8000
  · simp [h1]
  by_cases h2 : addr.toNat < 0xFFF0
  · simp [h1, h2]
    omega
  by_cases h3 : addr.toNat < 0xFFFA
  · simp [h1, h2, h3]
    omega
  by_cases h4 : addr.toNat = 0xFFFA
  · have : addr = 0xFFFA := BitVec.eq_of_toNat_eq h4
    subst this
    decide
  by_cases h5 : addr.toNat = 0xFFFB
  · have : addr = 0xFFFB := BitVec.eq_of_toNat_eq h5
    subst this
    decide
  simp [h1, h2, h3, h4, h5]
  omega

theorem targetOf_eq_ram {addr : Addr} : targetOf addr = .ram ↔ addr.toNat < 0x8000 := by
  refine ⟨fun h => ?_, targetOf_ram⟩
  rcases targetOf_cases addr with ⟨_, hlt⟩ | ⟨ht, _⟩ | ⟨ht, _⟩ | ⟨ht, _⟩ | ⟨ht, _⟩ | ⟨ht, _⟩
  · exact hlt
  all_goals rw [ht] at h; cases h

theorem targetOf_eq_device {addr : Addr} : targetOf addr = .device ↔ 0xFFF0 ≤ addr.toNat ∧ addr.toNat < 0xFFFA := by
  refine ⟨fun h => ?_, fun h => targetOf_device h.1 h.2⟩
  rcases targetOf_cases addr with ⟨ht, _⟩ | ⟨ht, _⟩ | ⟨_, hd⟩ | ⟨ht, _⟩ | ⟨ht, _⟩ | ⟨ht, _⟩
  · rw [ht] at h; cases h
  · rw [ht] at h; cases h
  · exact hd
  all_goals rw [ht] at h; cases h

theorem bankPresent_iff {h l : Byte} : bankPresent h l = true ↔ h.toNat < 255 ∧ l.toNat < 255 := by
  rw [bankPresent, Bool.and_eq_true, decide_eq_true_iff, decide_eq_true_iff, Config.banksPerPage]

theorem bankPresent_false_iff {h l : Byte} : bankPresent h l = false ↔ h = 0xFF ∨ l = 0xFF := by
  rw [← Bool.not_eq_true, bankPresent_iff]
  have := h.isLt
  have := l.isLt
  constructor
  · intro hn
    by_cases e : h.toNat = 255
    · exact .inl (BitVec.eq_of_toNat_eq e)
    · exact .inr (BitVec.eq_of_toNat_eq (by show l.toNat = 255; omega))
  · rintro (rfl | rfl) ⟨h1, h2⟩ <;> revert h1 h2 <;> decide +revert

/-! ## Reads -/

theorem deviceRead_effect (port : Addr) :
    ∃ v rest, s.deviceRead port = (v, (s.setDeviceInput rest).emit (.devRead port v)) ∧
      (s.deviceInput = v :: rest ∨ (s.deviceInput = [] ∧ rest = [] ∧ v = Config.deviceAnswer s.trace port)) := by
  unfold State.deviceRead
  split
  · rename_i v rest h
    exact ⟨v, rest, rfl, .inl h⟩
  · rename_i h
    refine ⟨Config.deviceAnswer s.trace port, [], ?_, .inr ⟨h, rfl, rfl⟩⟩
    cases s
    cases h
    rfl

theorem romRead_present {addr : Addr} (h : bankPresent s.mpH s.mpL = true) :
    s.romRead addr = (memGet s.rom (s.romKey addr), s) := by simp [State.romRead, h]

theorem romRead_absent {addr : Addr} (h : bankPresent s.mpH s.mpL = false) :
    s.romRead addr = (Config.absentBankByte s.draws, s.setDraws (s.draws + 1)) := by simp [State.romRead, h]

/-- All that a read can change: events, the device answers left, and the count of free draws. -/
theorem memRead_effect (addr : Addr) :
    ∃ tr di n, (memRead s addr).2 = { s with trace := tr, deviceInput := di, draws := n } := by
  unfold memRead
  split
  · exact ⟨_, _, _, rfl⟩
  · exact ⟨_, _, _, rfl⟩
  · exact ⟨_, _, _, rfl⟩
  · obtain ⟨v, rest, h, _⟩ := deviceRead_effect s addr
    rw [h]
    exact ⟨_, _, _, rfl⟩
  · unfold State.romRead
    split <;> exact ⟨_, _, _, rfl⟩

/-- A read whose byte is fixed gives that byte and changes nothing (20_memory.md R216). -/
theorem memRead_of_view {addr : Addr} {v : Byte} (h : s.view addr = some v) : memRead s addr = (v, s) := by
  unfold State.view at h
  unfold memRead
  split at h <;> rename_i ht <;> rw [ht]
  · cases h; rfl
  · cases h; rfl
  · cases h; rfl
  · split at h
    · rename_i hb
      cases h
      exact romRead_present s hb
    · cases h
  · cases h

theorem memRead_device {addr : Addr} (h : targetOf addr = .device) : memRead s addr = s.deviceRead addr := by
  simp [memRead, h]

/-- A read never takes an event back, and adds one exactly at a device port. -/
theorem memRead_trace (addr : Addr) :
    (memRead s addr).2.trace =
      if targetOf addr = .device then s.trace ++ [.devRead addr (memRead s addr).1] else s.trace := by
  unfold memRead
  split <;> rename_i ht <;> simp only [ht, reduceCtorEq, if_false, if_true]
  · obtain ⟨v, rest, h, _⟩ := deviceRead_effect s addr
    rw [h]
    rfl
  · unfold State.romRead
    split <;> rfl

@[simp] theorem memRead_a (addr : Addr) : (memRead s addr).2.a = s.a := by obtain ⟨_, _, _, h⟩ := memRead_effect s addr; rw [h]
@[simp] theorem memRead_b (addr : Addr) : (memRead s addr).2.b = s.b := by obtain ⟨_, _, _, h⟩ := memRead_effect s addr; rw [h]
@[simp] theorem memRead_x (addr : Addr) : (memRead s addr).2.x = s.x := by obtain ⟨_, _, _, h⟩ := memRead_effect s addr; rw [h]
@[simp] theorem memRead_y (addr : Addr) : (memRead s addr).2.y = s.y := by obtain ⟨_, _, _, h⟩ := memRead_effect s addr; rw [h]
@[simp] theorem memRead_f (addr : Addr) : (memRead s addr).2.f = s.f := by obtain ⟨_, _, _, h⟩ := memRead_effect s addr; rw [h]
@[simp] theorem memRead_sp (addr : Addr) : (memRead s addr).2.sp = s.sp := by obtain ⟨_, _, _, h⟩ := memRead_effect s addr; rw [h]
@[simp] theorem memRead_ir (addr : Addr) : (memRead s addr).2.ir = s.ir := by obtain ⟨_, _, _, h⟩ := memRead_effect s addr; rw [h]
@[simp] theorem memRead_pc (addr : Addr) : (memRead s addr).2.pc = s.pc := by obtain ⟨_, _, _, h⟩ := memRead_effect s addr; rw [h]
@[simp] theorem memRead_mpL (addr : Addr) : (memRead s addr).2.mpL = s.mpL := by obtain ⟨_, _, _, h⟩ := memRead_effect s addr; rw [h]
@[simp] theorem memRead_mpH (addr : Addr) : (memRead s addr).2.mpH = s.mpH := by obtain ⟨_, _, _, h⟩ := memRead_effect s addr; rw [h]
@[simp] theorem memRead_run (addr : Addr) : (memRead s addr).2.run = s.run := by obtain ⟨_, _, _, h⟩ := memRead_effect s addr; rw [h]
@[simp] theorem memRead_ram (addr : Addr) : (memRead s addr).2.ram = s.ram := by obtain ⟨_, _, _, h⟩ := memRead_effect s addr; rw [h]
@[simp] theorem memRead_rom (addr : Addr) : (memRead s addr).2.rom = s.rom := by obtain ⟨_, _, _, h⟩ := memRead_effect s addr; rw [h]
@[simp] theorem memRead_reg (addr : Addr) (r : Reg) : (memRead s addr).2.reg r = s.reg r := by cases r <;> simp [State.reg]

/-! ## Writes -/

theorem memWrite_to_ram {addr : Addr} (h : addr.toNat < 0x8000) (v : Byte) :
    memWrite s addr v = s.setRam (memSet s.ram addr.toNat v) := by simp [memWrite, targetOf_ram h]

theorem memWrite_to_pageLow (v : Byte) : memWrite s 0xFFFA v = s.setMpL v := by simp [memWrite]

theorem memWrite_to_pageHigh (v : Byte) : memWrite s 0xFFFB v = s.setMpH v := by simp [memWrite]

theorem memWrite_to_device {addr : Addr} (h : targetOf addr = .device) (v : Byte) :
    memWrite s addr v = s.emit (.devWrite addr v) := by simp [memWrite, h]

theorem memWrite_to_rom {addr : Addr} (h : targetOf addr = .rom) (v : Byte) :
    memWrite s addr v = s.emit (.readOnlyViolation addr v) := by simp [memWrite, h]

@[simp] theorem memWrite_a (addr : Addr) (v : Byte) : (memWrite s addr v).a = s.a := by unfold memWrite; split <;> rfl
@[simp] theorem memWrite_b (addr : Addr) (v : Byte) : (memWrite s addr v).b = s.b := by unfold memWrite; split <;> rfl
@[simp] theorem memWrite_x (addr : Addr) (v : Byte) : (memWrite s addr v).x = s.x := by unfold memWrite; split <;> rfl
@[simp] theorem memWrite_y (addr : Addr) (v : Byte) : (memWrite s addr v).y = s.y := by unfold memWrite; split <;> rfl
@[simp] theorem memWrite_f (addr : Addr) (v : Byte) : (memWrite s addr v).f = s.f := by unfold memWrite; split <;> rfl
@[simp] theorem memWrite_sp (addr : Addr) (v : Byte) : (memWrite s addr v).sp = s.sp := by unfold memWrite; split <;> rfl
@[simp] theorem memWrite_ir (addr : Addr) (v : Byte) : (memWrite s addr v).ir = s.ir := by unfold memWrite; split <;> rfl
@[simp] theorem memWrite_pc (addr : Addr) (v : Byte) : (memWrite s addr v).pc = s.pc := by unfold memWrite; split <;> rfl
@[simp] theorem memWrite_run (addr : Addr) (v : Byte) : (memWrite s addr v).run = s.run := by unfold memWrite; split <;> rfl
@[simp] theorem memWrite_rom (addr : Addr) (v : Byte) : (memWrite s addr v).rom = s.rom := by unfold memWrite; split <;> rfl
@[simp] theorem memWrite_deviceInput (addr : Addr) (v : Byte) : (memWrite s addr v).deviceInput = s.deviceInput := by unfold memWrite; split <;> rfl
@[simp] theorem memWrite_draws (addr : Addr) (v : Byte) : (memWrite s addr v).draws = s.draws := by unfold memWrite; split <;> rfl
@[simp] theorem memWrite_reg (addr : Addr) (v : Byte) (r : Reg) : (memWrite s addr v).reg r = s.reg r := by cases r <;> simp [State.reg]

/-- What each RAM cell holds after a write: only the addressed cell, if the address is RAM, changes. -/
theorem memWrite_ram_get (addr : Addr) (v : Byte) (i : Nat) :
    memGet (memWrite s addr v).ram i = if addr.toNat < 0x8000 ∧ addr.toNat = i then v else memGet s.ram i := by
  by_cases h : addr.toNat < 0x8000
  · rw [memWrite_to_ram s h, setRam_ram, memGet_memSet]
    simp [h]
  · have hn : targetOf addr ≠ .ram := fun e => h (targetOf_eq_ram.1 e)
    have : (memWrite s addr v).ram = s.ram := by
      unfold memWrite
      split <;> first | rfl | contradiction
    simp [this, h]

theorem memWrite_mpL (addr : Addr) (v : Byte) : (memWrite s addr v).mpL = if addr = 0xFFFA then v else s.mpL := by
  rcases targetOf_cases addr with ⟨ht, h⟩ | ⟨ht, h⟩ | ⟨ht, h⟩ | ⟨ht, rfl⟩ | ⟨ht, rfl⟩ | ⟨ht, h⟩ <;> simp only [memWrite, ht]
  all_goals first
    | rfl
    | (rw [if_neg (by rintro rfl; revert h; decide)]; rfl)

theorem memWrite_mpH (addr : Addr) (v : Byte) : (memWrite s addr v).mpH = if addr = 0xFFFB then v else s.mpH := by
  rcases targetOf_cases addr with ⟨ht, h⟩ | ⟨ht, h⟩ | ⟨ht, h⟩ | ⟨ht, rfl⟩ | ⟨ht, rfl⟩ | ⟨ht, h⟩ <;> simp only [memWrite, ht]
  all_goals first
    | rfl
    | (rw [if_neg (by rintro rfl; revert h; decide)]; rfl)

/-- The one event a write can add. -/
theorem memWrite_trace (addr : Addr) (v : Byte) :
    (memWrite s addr v).trace = s.trace ++
      (match targetOf addr with
        | .device => [.devWrite addr v]
        | .rom => [.readOnlyViolation addr v]
        | _ => []) := by
  unfold memWrite
  split <;> rename_i ht <;> simp [ht]

theorem memoryWf_iff : s.memoryWf = true ↔ memWf Config.ramSize s.ram = true ∧ memWf Config.romSize s.rom = true := by
  simp [State.memoryWf]

/-- A write keeps memory in canonical form. -/
theorem memWrite_memoryWf {s : State} (h : s.memoryWf = true) (addr : Addr) (v : Byte) :
    (memWrite s addr v).memoryWf = true := by
  rw [memoryWf_iff] at h ⊢
  refine ⟨?_, by simpa using h.2⟩
  unfold memWrite
  split
  · rename_i ht
    exact memWf_memSet h.1 (targetOf_eq_ram.1 ht) v
  all_goals exact h.1

/-! ## The stack -/

theorem stackAddr_bounds (sp : Byte) : 0x7F00 ≤ stackAddr sp ∧ stackAddr sp ≤ 0x7FFF := by
  have := sp.isLt
  unfold stackAddr Config.stackBase
  omega

theorem stackAddr_inj {p q : Byte} (h : stackAddr p = stackAddr q) : p = q :=
  BitVec.eq_of_toNat_eq (by unfold stackAddr at h; omega)

@[simp] theorem push_a (v : Byte) : (push s v).a = s.a := by simp [push]
@[simp] theorem push_b (v : Byte) : (push s v).b = s.b := by simp [push]
@[simp] theorem push_x (v : Byte) : (push s v).x = s.x := by simp [push]
@[simp] theorem push_y (v : Byte) : (push s v).y = s.y := by simp [push]
@[simp] theorem push_f (v : Byte) : (push s v).f = s.f := by simp [push]
@[simp] theorem push_ir (v : Byte) : (push s v).ir = s.ir := by simp [push]
@[simp] theorem push_pc (v : Byte) : (push s v).pc = s.pc := by simp [push]
@[simp] theorem push_mpL (v : Byte) : (push s v).mpL = s.mpL := by simp [push]
@[simp] theorem push_mpH (v : Byte) : (push s v).mpH = s.mpH := by simp [push]
@[simp] theorem push_run (v : Byte) : (push s v).run = s.run := by simp [push]
@[simp] theorem push_rom (v : Byte) : (push s v).rom = s.rom := by simp [push]
@[simp] theorem push_trace (v : Byte) : (push s v).trace = s.trace := by simp [push]
@[simp] theorem push_deviceInput (v : Byte) : (push s v).deviceInput = s.deviceInput := by simp [push]
@[simp] theorem push_draws (v : Byte) : (push s v).draws = s.draws := by simp [push]
@[simp] theorem push_reg (v : Byte) (r : Reg) : (push s v).reg r = s.reg r := by cases r <;> simp [State.reg]
@[simp] theorem push_sp (v : Byte) : (push s v).sp = s.sp + 1 := by simp [push]

theorem push_ram_get (v : Byte) (i : Nat) :
    memGet (push s v).ram i = if stackAddr s.sp = i then v else memGet s.ram i := memGet_memSet ..

theorem push_memoryWf {s : State} (h : s.memoryWf = true) (v : Byte) : (push s v).memoryWf = true := by
  rw [memoryWf_iff] at h ⊢
  have := stackAddr_bounds s.sp
  exact ⟨memWf_memSet h.1 (by unfold Config.ramSize; omega) v, h.2⟩

@[simp] theorem popState_a : (popState s).a = s.a := by simp [popState]
@[simp] theorem popState_b : (popState s).b = s.b := by simp [popState]
@[simp] theorem popState_x : (popState s).x = s.x := by simp [popState]
@[simp] theorem popState_y : (popState s).y = s.y := by simp [popState]
@[simp] theorem popState_f : (popState s).f = s.f := by simp [popState]
@[simp] theorem popState_ir : (popState s).ir = s.ir := by simp [popState]
@[simp] theorem popState_pc : (popState s).pc = s.pc := by simp [popState]
@[simp] theorem popState_mpL : (popState s).mpL = s.mpL := by simp [popState]
@[simp] theorem popState_mpH : (popState s).mpH = s.mpH := by simp [popState]
@[simp] theorem popState_run : (popState s).run = s.run := by simp [popState]
@[simp] theorem popState_ram : (popState s).ram = s.ram := by simp [popState]
@[simp] theorem popState_rom : (popState s).rom = s.rom := by simp [popState]
@[simp] theorem popState_trace : (popState s).trace = s.trace := by simp [popState]
@[simp] theorem popState_deviceInput : (popState s).deviceInput = s.deviceInput := by simp [popState]
@[simp] theorem popState_draws : (popState s).draws = s.draws := by simp [popState]
@[simp] theorem popState_reg (r : Reg) : (popState s).reg r = s.reg r := by cases r <;> simp [State.reg]
@[simp] theorem popState_sp : (popState s).sp = s.sp - 1 := rfl

/-- A pop reads back what the push before it stored. -/
theorem popValue_push (v : Byte) : popValue (push s v) = v := by
  unfold popValue
  rw [push_ram_get, push_sp, BitVec.add_sub_cancel, if_pos rfl]

/-! ## Subroutines -/

@[simp] theorem call_a (t : Addr) : (call s t).a = s.a := by simp [call]
@[simp] theorem call_b (t : Addr) : (call s t).b = s.b := by simp [call]
@[simp] theorem call_x (t : Addr) : (call s t).x = s.x := by simp [call]
@[simp] theorem call_y (t : Addr) : (call s t).y = s.y := by simp [call]
@[simp] theorem call_f (t : Addr) : (call s t).f = s.f := by simp [call]
@[simp] theorem call_ir (t : Addr) : (call s t).ir = s.ir := by simp [call]
@[simp] theorem call_mpL (t : Addr) : (call s t).mpL = s.mpL := by simp [call]
@[simp] theorem call_mpH (t : Addr) : (call s t).mpH = s.mpH := by simp [call]
@[simp] theorem call_run (t : Addr) : (call s t).run = s.run := by simp [call]
@[simp] theorem call_rom (t : Addr) : (call s t).rom = s.rom := by simp [call]
@[simp] theorem call_trace (t : Addr) : (call s t).trace = s.trace := by simp [call]
@[simp] theorem call_deviceInput (t : Addr) : (call s t).deviceInput = s.deviceInput := by simp [call]
@[simp] theorem call_draws (t : Addr) : (call s t).draws = s.draws := by simp [call]
@[simp] theorem call_reg (t : Addr) (r : Reg) : (call s t).reg r = s.reg r := by cases r <;> simp [State.reg]
@[simp] theorem call_sp (t : Addr) : (call s t).sp = s.sp + 1 + 1 := by simp [call]

@[simp] theorem call_pc (t : Addr) : (call s t).pc = t := by simp [call]

/-- The two bytes a call stores, the low byte of the return address at the lower stack slot. -/
theorem call_ram_get (t : Addr) (i : Nat) :
    memGet (call s t).ram i =
      if stackAddr (s.sp + 1) = i then highByte s.pc
      else if stackAddr s.sp = i then lowByte s.pc else memGet s.ram i := by
  have h : (call s t).ram = (push (push s (lowByte s.pc)) (highByte s.pc)).ram := by simp [call]
  rw [h, push_ram_get, push_ram_get, push_sp]

theorem call_memoryWf {s : State} (h : s.memoryWf = true) (t : Addr) : (call s t).memoryWf = true := by
  have := push_memoryWf (push_memoryWf h (lowByte s.pc)) (highByte s.pc)
  rw [memoryWf_iff] at this ⊢
  simpa [call] using this

@[simp] theorem ret_a : (ret s).a = s.a := by simp [ret]
@[simp] theorem ret_b : (ret s).b = s.b := by simp [ret]
@[simp] theorem ret_x : (ret s).x = s.x := by simp [ret]
@[simp] theorem ret_y : (ret s).y = s.y := by simp [ret]
@[simp] theorem ret_f : (ret s).f = s.f := by simp [ret]
@[simp] theorem ret_ir : (ret s).ir = s.ir := by simp [ret]
@[simp] theorem ret_mpL : (ret s).mpL = s.mpL := by simp [ret]
@[simp] theorem ret_mpH : (ret s).mpH = s.mpH := by simp [ret]
@[simp] theorem ret_run : (ret s).run = s.run := by simp [ret]
@[simp] theorem ret_ram : (ret s).ram = s.ram := by simp [ret]
@[simp] theorem ret_rom : (ret s).rom = s.rom := by simp [ret]
@[simp] theorem ret_trace : (ret s).trace = s.trace := by simp [ret]
@[simp] theorem ret_deviceInput : (ret s).deviceInput = s.deviceInput := by simp [ret]
@[simp] theorem ret_draws : (ret s).draws = s.draws := by simp [ret]
@[simp] theorem ret_reg (r : Reg) : (ret s).reg r = s.reg r := by cases r <;> simp [State.reg]
@[simp] theorem ret_sp : (ret s).sp = s.sp - 1 - 1 := by simp [ret]

@[simp] theorem ret_pc : (ret s).pc = returnTarget s := by simp [ret]

theorem joinBytes_high_low (v : Addr) : joinBytes (highByte v) (lowByte v) = v := by
  unfold joinBytes highByte lowByte
  apply BitVec.eq_of_getLsbD_eq
  intro i hi
  rw [BitVec.getLsbD_append]
  split
  · rename_i h8
    simp [h8]
  · rename_i h8
    simp only [BitVec.getLsbD_extractLsb', show i - 8 < 8 by omega, decide_true, Bool.true_and]
    congr 1
    omega

@[simp] theorem lowByte_joinBytes (hi lo : Byte) : lowByte (joinBytes hi lo) = lo := by
  unfold joinBytes lowByte
  apply BitVec.eq_of_getLsbD_eq
  intro i hi
  rw [BitVec.getLsbD_extractLsb', BitVec.getLsbD_append]
  simp [hi]

@[simp] theorem highByte_joinBytes (hi lo : Byte) : highByte (joinBytes hi lo) = hi := by
  unfold joinBytes highByte
  apply BitVec.eq_of_getLsbD_eq
  intro i h
  rw [BitVec.getLsbD_extractLsb', BitVec.getLsbD_append]
  simp [h]

/-! ## The fetch -/

@[simp] theorem fetchByte_a : (fetchByte s).2.a = s.a := by simp [fetchByte]
@[simp] theorem fetchByte_b : (fetchByte s).2.b = s.b := by simp [fetchByte]
@[simp] theorem fetchByte_x : (fetchByte s).2.x = s.x := by simp [fetchByte]
@[simp] theorem fetchByte_y : (fetchByte s).2.y = s.y := by simp [fetchByte]
@[simp] theorem fetchByte_f : (fetchByte s).2.f = s.f := by simp [fetchByte]
@[simp] theorem fetchByte_sp : (fetchByte s).2.sp = s.sp := by simp [fetchByte]
@[simp] theorem fetchByte_ir : (fetchByte s).2.ir = s.ir := by simp [fetchByte]
@[simp] theorem fetchByte_mpL : (fetchByte s).2.mpL = s.mpL := by simp [fetchByte]
@[simp] theorem fetchByte_mpH : (fetchByte s).2.mpH = s.mpH := by simp [fetchByte]
@[simp] theorem fetchByte_run : (fetchByte s).2.run = s.run := by simp [fetchByte]
@[simp] theorem fetchByte_ram : (fetchByte s).2.ram = s.ram := by simp [fetchByte]
@[simp] theorem fetchByte_rom : (fetchByte s).2.rom = s.rom := by simp [fetchByte]
@[simp] theorem fetchByte_reg (r : Reg) : (fetchByte s).2.reg r = s.reg r := by cases r <;> simp [State.reg]
@[simp] theorem fetchByte_pc : (fetchByte s).2.pc = s.pc + 1 := by simp [fetchByte]

@[simp] theorem fetchOpcode_a : (fetchOpcode s).2.a = s.a := by simp [fetchOpcode]
@[simp] theorem fetchOpcode_b : (fetchOpcode s).2.b = s.b := by simp [fetchOpcode]
@[simp] theorem fetchOpcode_x : (fetchOpcode s).2.x = s.x := by simp [fetchOpcode]
@[simp] theorem fetchOpcode_y : (fetchOpcode s).2.y = s.y := by simp [fetchOpcode]
@[simp] theorem fetchOpcode_f : (fetchOpcode s).2.f = s.f := by simp [fetchOpcode]
@[simp] theorem fetchOpcode_sp : (fetchOpcode s).2.sp = s.sp := by simp [fetchOpcode]
@[simp] theorem fetchOpcode_mpL : (fetchOpcode s).2.mpL = s.mpL := by simp [fetchOpcode]
@[simp] theorem fetchOpcode_mpH : (fetchOpcode s).2.mpH = s.mpH := by simp [fetchOpcode]
@[simp] theorem fetchOpcode_run : (fetchOpcode s).2.run = s.run := by simp [fetchOpcode]
@[simp] theorem fetchOpcode_ram : (fetchOpcode s).2.ram = s.ram := by simp [fetchOpcode]
@[simp] theorem fetchOpcode_rom : (fetchOpcode s).2.rom = s.rom := by simp [fetchOpcode]
@[simp] theorem fetchOpcode_reg (r : Reg) : (fetchOpcode s).2.reg r = s.reg r := by cases r <;> simp [State.reg]
@[simp] theorem fetchOpcode_pc : (fetchOpcode s).2.pc = s.pc + 1 := by simp [fetchOpcode]

@[simp] theorem fetchOpcode_ir : (fetchOpcode s).2.ir = (fetchOpcode s).1 := rfl

/-- A fetch of a fixed byte gives it and advances PC. -/
theorem fetchByte_of_view {s : State} {v : Byte} (h : s.view s.pc = some v) : fetchByte s = (v, s.setPc (s.pc + 1)) := by
  simp [fetchByte, memRead_of_view s h]

/-- Fixed bytes are unaffected by PC and IR. -/
@[simp] theorem view_setPc (v addr : Addr) : (s.setPc v).view addr = s.view addr := rfl

@[simp] theorem view_setIr (v : Byte) (addr : Addr) : (s.setIr v).view addr = s.view addr := rfl

/-- The fetch of a format I instruction whose opcode byte is fixed. -/
theorem fetchInstr_I {s : State} {op : Byte} (h0 : s.view s.pc = some op) (hf : formatOf op = .I) :
    fetchInstr s = (instrOf op 0 0, (s.setPc (s.pc + 1)).setIr op) := by
  simp [fetchInstr, fetchOpcode, fetchByte_of_view h0, hf]

/-- The fetch of a format M instruction whose bytes are fixed. -/
theorem fetchInstr_M {s : State} {op b1 : Byte} (h0 : s.view s.pc = some op) (h1 : s.view (s.pc + 1) = some b1)
    (hf : formatOf op = .M) : fetchInstr s = (instrOf op b1 0, (s.setPc (s.pc + 2)).setIr op) := by
  have h : fetchByte ((s.setPc (s.pc + 1)).setIr op) = (b1, ((s.setPc (s.pc + 2)).setIr op)) := by
    rw [fetchByte_of_view (v := b1) (by simpa using h1), setIr_pc, setPc_pc, BitVec.add_assoc]
    rfl
  simp only [fetchInstr, fetchOpcode, fetchByte_of_view h0, setIr_ir, hf, h]

/-- The fetch of a format W instruction whose bytes are fixed. -/
theorem fetchInstr_W {s : State} {op b1 b2 : Byte} (h0 : s.view s.pc = some op) (h1 : s.view (s.pc + 1) = some b1)
    (h2 : s.view (s.pc + 2) = some b2) (hf : formatOf op = .W) :
    fetchInstr s = (instrOf op b1 b2, (s.setPc (s.pc + 3)).setIr op) := by
  have h : fetchByte ((s.setPc (s.pc + 1)).setIr op) = (b1, ((s.setPc (s.pc + 2)).setIr op)) := by
    rw [fetchByte_of_view (v := b1) (by simpa using h1), setIr_pc, setPc_pc, BitVec.add_assoc]
    rfl
  have h' : fetchByte ((s.setPc (s.pc + 2)).setIr op) = (b2, ((s.setPc (s.pc + 3)).setIr op)) := by
    rw [fetchByte_of_view (v := b2) (by simpa using h2), setIr_pc, setPc_pc, BitVec.add_assoc]
    rfl
  simp only [fetchInstr, fetchOpcode, fetchByte_of_view h0, setIr_ir, hf, h, h']

/-- All that the fetch changes: PC, IR, and what reads can change. -/
theorem fetchInstr_effect :
    ∃ p op tr di n, (fetchInstr s).2 = { s with pc := p, ir := op, trace := tr, deviceInput := di, draws := n } := by
  have hb : ∀ u : State, ∃ p tr di n, (fetchByte u).2 = { u with pc := p, trace := tr, deviceInput := di, draws := n } := by
    intro u
    obtain ⟨tr, di, n, h⟩ := memRead_effect u u.pc
    simp only [fetchByte, h]
    exact ⟨_, _, _, _, rfl⟩
  obtain ⟨p0, tr0, di0, n0, h0⟩ := hb s
  simp only [fetchInstr]
  split
  · simp only [fetchOpcode, h0]
    exact ⟨_, _, _, _, _, rfl⟩
  · obtain ⟨p1, tr1, di1, n1, h1⟩ := hb (fetchOpcode s).2
    simp only [h1]
    simp only [fetchOpcode, h0]
    exact ⟨_, _, _, _, _, rfl⟩
  · obtain ⟨p1, tr1, di1, n1, h1⟩ := hb (fetchOpcode s).2
    obtain ⟨p2, tr2, di2, n2, h2⟩ := hb (fetchByte (fetchOpcode s).2).2
    simp only [h2]
    simp only [h1]
    simp only [fetchOpcode, h0]
    exact ⟨_, _, _, _, _, rfl⟩

@[simp] theorem fetchInstr_a : (fetchInstr s).2.a = s.a := by obtain ⟨_, _, _, _, _, h⟩ := fetchInstr_effect s; rw [h]
@[simp] theorem fetchInstr_b : (fetchInstr s).2.b = s.b := by obtain ⟨_, _, _, _, _, h⟩ := fetchInstr_effect s; rw [h]
@[simp] theorem fetchInstr_x : (fetchInstr s).2.x = s.x := by obtain ⟨_, _, _, _, _, h⟩ := fetchInstr_effect s; rw [h]
@[simp] theorem fetchInstr_y : (fetchInstr s).2.y = s.y := by obtain ⟨_, _, _, _, _, h⟩ := fetchInstr_effect s; rw [h]
@[simp] theorem fetchInstr_f : (fetchInstr s).2.f = s.f := by obtain ⟨_, _, _, _, _, h⟩ := fetchInstr_effect s; rw [h]
@[simp] theorem fetchInstr_sp : (fetchInstr s).2.sp = s.sp := by obtain ⟨_, _, _, _, _, h⟩ := fetchInstr_effect s; rw [h]
@[simp] theorem fetchInstr_mpL : (fetchInstr s).2.mpL = s.mpL := by obtain ⟨_, _, _, _, _, h⟩ := fetchInstr_effect s; rw [h]
@[simp] theorem fetchInstr_mpH : (fetchInstr s).2.mpH = s.mpH := by obtain ⟨_, _, _, _, _, h⟩ := fetchInstr_effect s; rw [h]
@[simp] theorem fetchInstr_run : (fetchInstr s).2.run = s.run := by obtain ⟨_, _, _, _, _, h⟩ := fetchInstr_effect s; rw [h]
@[simp] theorem fetchInstr_ram : (fetchInstr s).2.ram = s.ram := by obtain ⟨_, _, _, _, _, h⟩ := fetchInstr_effect s; rw [h]
@[simp] theorem fetchInstr_rom : (fetchInstr s).2.rom = s.rom := by obtain ⟨_, _, _, _, _, h⟩ := fetchInstr_effect s; rw [h]
@[simp] theorem fetchInstr_reg (r : Reg) : (fetchInstr s).2.reg r = s.reg r := by cases r <;> simp [State.reg]

/-! ## The conditional transfers -/

@[simp] theorem callIf_true (t : Addr) : callIf true t s = call s t := rfl

@[simp] theorem callIf_false (t : Addr) : callIf false t s = s := rfl

@[simp] theorem jumpIf_true (t : Addr) : jumpIf true t s = s.setPc t := rfl

@[simp] theorem jumpIf_false (t : Addr) : jumpIf false t s = s := rfl

/-! ## The step -/

theorem step_halted {s : State} (h : s.run = .halted) : step s = .next s := by simp [step, h]

theorem step_running {s : State} (h : s.run = .running) : step s = exec (fetchInstr s).1 (fetchInstr s).2 := by
  simp [step, h]

end Sys2Proof.Machine
end

