-- ==== Sys2Proof/Laws/Safety.lean ====
section
/-! SUPPORT. The terms of the statements, instruction by instruction, so that no proof unfolds their matches over `Instr`. -/

namespace Sys2Proof.Machine

variable (s : State) (addr : Addr)

@[simp] theorem transferTo_jmp : s.transferTo (.jmp addr) = some addr := rfl
@[simp] theorem transferTo_jsr : s.transferTo (.jsr addr) = some addr := rfl
@[simp] theorem transferTo_ret : s.transferTo .ret = some (returnTarget s) := rfl
@[simp] theorem transferTo_jse : s.transferTo (.jse addr) = if s.flagZ then some addr else none := rfl
@[simp] theorem transferTo_jsn : s.transferTo (.jsn addr) = if s.flagZ then none else some addr := rfl
@[simp] theorem transferTo_bne : s.transferTo (.bne addr) = if s.flagZ then none else some addr := rfl
@[simp] theorem transferTo_beq : s.transferTo (.beq addr) = if s.flagZ then some addr else none := rfl

@[simp] theorem storeAddr_stiA : s.storeAddr .stiA = some s.indirectAddr := rfl
@[simp] theorem storeAddr_stiB : s.storeAddr .stiB = some s.indirectAddr := rfl
@[simp] theorem storeAddr_stA : s.storeAddr (.stA addr) = some addr := rfl
@[simp] theorem storeAddr_stB : s.storeAddr (.stB addr) = some addr := rfl
@[simp] theorem storeAddr_stX : s.storeAddr (.stX addr) = some addr := rfl
@[simp] theorem storeAddr_stY : s.storeAddr (.stY addr) = some addr := rfl

@[simp] theorem stackMove_pushA : s.stackMove .pushA = 1 := rfl
@[simp] theorem stackMove_pushB : s.stackMove .pushB = 1 := rfl
@[simp] theorem stackMove_pushX : s.stackMove .pushX = 1 := rfl
@[simp] theorem stackMove_pushY : s.stackMove .pushY = 1 := rfl
@[simp] theorem stackMove_jsr : s.stackMove (.jsr addr) = 2 := rfl
@[simp] theorem stackMove_jse : s.stackMove (.jse addr) = if s.flagZ then 2 else 0 := rfl
@[simp] theorem stackMove_jsn : s.stackMove (.jsn addr) = if s.flagZ then 0 else 2 := rfl
@[simp] theorem stackMove_ret : s.stackMove .ret = -2 := rfl

/-- `State.holds` one byte at a time. -/
theorem holds_cons (v : Byte) (rest : List Byte) :
    s.holds addr (v :: rest) = true ↔ s.view addr = some v ∧ s.holds (addr + 1) rest = true := by
  simp [State.holds]

end Sys2Proof.Machine
end

