-- ==== Sys2Proof/Laws/Exec.lean ====
section
/-! SUPPORT. What one instruction can do, said once: the shapes of the next states of `exec`. -/

namespace Sys2Proof.Machine

/-- `ExecShape i s t`: `t` is the next state of `i` from `s`, by what kind of change it makes. -/
inductive ExecShape : Instr → State → State → Prop where
  /-- Nothing: the no-operations, and the branches and calls not taken. -/
  | same (i : Instr) (s : State) (hs : s.storeAddr i = none) (hm : s.stackMove i = 0) (ht : s.transferTo i = none)
      (hf : i.wf = true → isFlagCheckOp (opcodeOf i).toNat = false)
      (hz : i.wf = true → [0xD0, 0xD5, 0xDA, 0xDF].contains (opcodeOf i).toNat = false)
      (hc : i ≠ .clc ∧ i ≠ .cln ∧ i ≠ .clz ∧ i ≠ .clv) (hh : i ≠ .hlt) : ExecShape i s s
  /-- HLT. -/
  | halt (s : State) : ExecShape .hlt s (s.setRun .halted)
  /-- The flag clears. -/
  | clear (i : Instr) (k : Nat) (s : State) (h : (i, k) ∈ [(Instr.clc, 2), (.cln, 1), (.clz, 0), (.clv, 3)]) :
      ExecShape i s (s.setF (clearBit s.f k))
  /-- The four SEZ. -/
  | sez (r : Reg) (s : State) : ExecShape (.sez r) s (s.setF (setBit s.f 0))
  /-- The 56 instructions that end with the flag check, on the register of bits 3:2. -/
  | alu (i : Instr) (r : Reg) (v : Byte) (s : State) (hs : s.storeAddr i = none) (hm : s.stackMove i = 0)
      (ht : s.transferTo i = none) (hf : isFlagCheckOp (opcodeOf i).toNat = true)
      (hr : regAt ((opcodeOf i).toNat / 4 % 4) = r) (hh : i ≠ .hlt) : ExecShape i s (aluResult r v s)
  /-- POP. -/
  | pop (r : Reg) (s : State) : ExecShape (.pop r) s (popInto r s)
  /-- PEEK. -/
  | peek (r : Reg) (s : State) : ExecShape (.peek r) s (peekInto r s)
  /-- PUSH. -/
  | push (r : Reg) (s : State) : ExecShape (.push r) s (push s (s.reg r))
  /-- MOV. -/
  | mov (d q : Reg) (s : State) (h : d ≠ q) : ExecShape (.mov d q) s (moveReg d q s)
  /-- STI. -/
  | sti (i : Instr) (v : Byte) (s : State) (h : (i, v) ∈ [(Instr.stiA, s.a), (.stiB, s.b)]) :
      ExecShape i s (memWrite s s.indirectAddr v)
  /-- ST. -/
  | st (r : Reg) (addr : Addr) (s : State) : ExecShape (.st r addr) s (memWrite s addr (s.reg r))
  /-- JMP, and BNE and BEQ taken. -/
  | jump (i : Instr) (addr : Addr) (s : State) (hi : i ∈ [Instr.jmp addr, .bne addr, .beq addr])
      (ht : s.transferTo i = some addr) : ExecShape i s (s.setPc addr)
  /-- JSR, and JSE and JSN taken. -/
  | call (i : Instr) (addr : Addr) (s : State) (hi : i ∈ [Instr.jsr addr, .jse addr, .jsn addr])
      (ht : s.transferTo i = some addr) (hm : s.stackMove i = 2) : ExecShape i s (call s addr)
  /-- RET. -/
  | ret (s : State) : ExecShape .ret s (ret s)

theorem unmapped_opcode {op : Byte} (h : isUnmapped op = true) :
    isFlagCheckOp op.toNat = false ∧ [0xD0, 0xD5, 0xDA, 0xDF].contains op.toNat = false := by
  revert op
  decide +kernel

/-- Everything an instruction can do. -/
theorem exec_shape {i : Instr} {s t : State} (h : exec i s = .next t) : ExecShape i s t := by
  cases i with
  | nop => cases h; exact .same _ _ rfl rfl rfl (fun _ => rfl) (fun _ => rfl) (by decide) (by decide)
  | rst => cases h; exact .same _ _ rfl rfl rfl (fun _ => rfl) (fun _ => rfl) (by decide) (by decide)
  | hlt => cases h; exact .halt _
  | brk => cases h; exact .same _ _ rfl rfl rfl (fun _ => rfl) (fun _ => rfl) (by decide) (by decide)
  | ctn => cases h; exact .same _ _ rfl rfl rfl (fun _ => rfl) (fun _ => rfl) (by decide) (by decide)
  | clc => cases h; exact .clear _ 2 _ (by decide)
  | cln => cases h; exact .clear _ 1 _ (by decide)
  | clz => cases h; exact .clear _ 0 _ (by decide)
  | clv => cases h; exact .clear _ 3 _ (by decide)
  | rolA => cases h; exact .alu _ .A _ _ rfl rfl rfl rfl rfl (by decide)
  | rorA => cases h; exact .alu _ .A _ _ rfl rfl rfl rfl rfl (by decide)
  | adiA imm => cases h; exact .alu _ .A _ _ rfl rfl rfl (by rw [opcodeOf_adiA]; rfl) (by rw [opcodeOf_adiA]; rfl) nofun
  | sbiA imm => cases h; exact .alu _ .A _ _ rfl rfl rfl (by rw [opcodeOf_sbiA]; rfl) (by rw [opcodeOf_sbiA]; rfl) nofun
  | rolB => cases h; exact .alu _ .B _ _ rfl rfl rfl rfl rfl (by decide)
  | rorB => cases h; exact .alu _ .B _ _ rfl rfl rfl rfl rfl (by decide)
  | adiB imm => cases h; exact .alu _ .B _ _ rfl rfl rfl (by rw [opcodeOf_adiB]; rfl) (by rw [opcodeOf_adiB]; rfl) nofun
  | sbiB imm => cases h; exact .alu _ .B _ _ rfl rfl rfl (by rw [opcodeOf_sbiB]; rfl) (by rw [opcodeOf_sbiB]; rfl) nofun
  | rolX => cases h; exact .alu _ .X _ _ rfl rfl rfl rfl rfl (by decide)
  | rorX => cases h; exact .alu _ .X _ _ rfl rfl rfl rfl rfl (by decide)
  | adiX imm => cases h; exact .alu _ .X _ _ rfl rfl rfl (by rw [opcodeOf_adiX]; rfl) (by rw [opcodeOf_adiX]; rfl) nofun
  | sbiX imm => cases h; exact .alu _ .X _ _ rfl rfl rfl (by rw [opcodeOf_sbiX]; rfl) (by rw [opcodeOf_sbiX]; rfl) nofun
  | rolY => cases h; exact .alu _ .Y _ _ rfl rfl rfl rfl rfl (by decide)
  | rorY => cases h; exact .alu _ .Y _ _ rfl rfl rfl rfl rfl (by decide)
  | adiY imm => cases h; exact .alu _ .Y _ _ rfl rfl rfl (by rw [opcodeOf_adiY]; rfl) (by rw [opcodeOf_adiY]; rfl) nofun
  | sbiY imm => cases h; exact .alu _ .Y _ _ rfl rfl rfl (by rw [opcodeOf_sbiY]; rfl) (by rw [opcodeOf_sbiY]; rfl) nofun
  | incA => cases h; exact .alu _ .A _ _ rfl rfl rfl rfl rfl (by decide)
  | decA => cases h; exact .alu _ .A _ _ rfl rfl rfl rfl rfl (by decide)
  | incB => cases h; exact .alu _ .B _ _ rfl rfl rfl rfl rfl (by decide)
  | decB => cases h; exact .alu _ .B _ _ rfl rfl rfl rfl rfl (by decide)
  | incX => cases h; exact .alu _ .X _ _ rfl rfl rfl rfl rfl (by decide)
  | decX => cases h; exact .alu _ .X _ _ rfl rfl rfl rfl rfl (by decide)
  | incY => cases h; exact .alu _ .Y _ _ rfl rfl rfl rfl rfl (by decide)
  | decY => cases h; exact .alu _ .Y _ _ rfl rfl rfl rfl rfl (by decide)
  | popA => cases h; exact .pop .A _
  | peekA => cases h; exact .peek .A _
  | popB => cases h; exact .pop .B _
  | peekB => cases h; exact .peek .B _
  | popX => cases h; exact .pop .X _
  | peekX => cases h; exact .peek .X _
  | popY => cases h; exact .pop .Y _
  | peekY => cases h; exact .peek .Y _
  | stiA => cases h; exact .sti _ _ _ (by simp)
  | stiB => cases h; exact .sti _ _ _ (by simp)
  | movBA => cases h; exact .mov .B .A _ (by decide)
  | movXA => cases h; exact .mov .X .A _ (by decide)
  | movYA => cases h; exact .mov .Y .A _ (by decide)
  | movAB => cases h; exact .mov .A .B _ (by decide)
  | movXB => cases h; exact .mov .X .B _ (by decide)
  | movYB => cases h; exact .mov .Y .B _ (by decide)
  | movAX => cases h; exact .mov .A .X _ (by decide)
  | movBX => cases h; exact .mov .B .X _ (by decide)
  | movYX => cases h; exact .mov .Y .X _ (by decide)
  | movAY => cases h; exact .mov .A .Y _ (by decide)
  | movBY => cases h; exact .mov .B .Y _ (by decide)
  | movXY => cases h; exact .mov .X .Y _ (by decide)
  | jmp addr => cases h; exact .jump _ addr _ (by simp) rfl
  | jsr addr => cases h; exact .call _ addr _ (by simp) rfl rfl
  | ret => cases h; exact .ret _
  | jse addr =>
    have h' : Host.Outcome.next (callIf s.flagZ addr s) = (.next t : Result) := h
    cases hz : s.flagZ
    · rw [hz] at h'
      cases h'
      exact .same _ _ rfl (by simp [hz]) (by simp [hz]) (fun _ => by rw [opcodeOf_jse]; rfl) (fun _ => by rw [opcodeOf_jse]; rfl)
        ⟨nofun, nofun, nofun, nofun⟩ nofun
    · rw [hz] at h'
      cases h'
      exact .call _ addr _ (by simp) (by simp [hz]) (by simp [hz])
  | jsn addr =>
    have h' : Host.Outcome.next (callIf (!s.flagZ) addr s) = (.next t : Result) := h
    cases hz : s.flagZ
    · rw [hz] at h'
      cases h'
      exact .call _ addr _ (by simp) (by simp [hz]) (by simp [hz])
    · rw [hz] at h'
      cases h'
      exact .same _ _ rfl (by simp [hz]) (by simp [hz]) (fun _ => by rw [opcodeOf_jsn]; rfl) (fun _ => by rw [opcodeOf_jsn]; rfl)
        ⟨nofun, nofun, nofun, nofun⟩ nofun
  | bne addr =>
    have h' : Host.Outcome.next (jumpIf (!s.flagZ) addr s) = (.next t : Result) := h
    cases hz : s.flagZ
    · rw [hz] at h'
      cases h'
      exact .jump _ addr _ (by simp) (by simp [hz])
    · rw [hz] at h'
      cases h'
      exact .same _ _ rfl rfl (by simp [hz]) (fun _ => by rw [opcodeOf_bne]; rfl) (fun _ => by rw [opcodeOf_bne]; rfl)
        ⟨nofun, nofun, nofun, nofun⟩ nofun
  | beq addr =>
    have h' : Host.Outcome.next (jumpIf s.flagZ addr s) = (.next t : Result) := h
    cases hz : s.flagZ
    · rw [hz] at h'
      cases h'
      exact .same _ _ rfl rfl (by simp [hz]) (fun _ => by rw [opcodeOf_beq]; rfl) (fun _ => by rw [opcodeOf_beq]; rfl)
        ⟨nofun, nofun, nofun, nofun⟩ nofun
    · rw [hz] at h'
      cases h'
      exact .jump _ addr _ (by simp) (by simp [hz])
  | addAA => cases h; exact .alu _ .A _ _ rfl rfl rfl rfl rfl (by decide)
  | addAB => cases h; exact .alu _ .A _ _ rfl rfl rfl rfl rfl (by decide)
  | addAX => cases h; exact .alu _ .A _ _ rfl rfl rfl rfl rfl (by decide)
  | addAY => cases h; exact .alu _ .A _ _ rfl rfl rfl rfl rfl (by decide)
  | addBA => cases h; exact .alu _ .B _ _ rfl rfl rfl rfl rfl (by decide)
  | addBB => cases h; exact .alu _ .B _ _ rfl rfl rfl rfl rfl (by decide)
  | addBX => cases h; exact .alu _ .B _ _ rfl rfl rfl rfl rfl (by decide)
  | addBY => cases h; exact .alu _ .B _ _ rfl rfl rfl rfl rfl (by decide)
  | addXA => cases h; exact .alu _ .X _ _ rfl rfl rfl rfl rfl (by decide)
  | addXB => cases h; exact .alu _ .X _ _ rfl rfl rfl rfl rfl (by decide)
  | addXX => cases h; exact .alu _ .X _ _ rfl rfl rfl rfl rfl (by decide)
  | addXY => cases h; exact .alu _ .X _ _ rfl rfl rfl rfl rfl (by decide)
  | addYA => cases h; exact .alu _ .Y _ _ rfl rfl rfl rfl rfl (by decide)
  | addYB => cases h; exact .alu _ .Y _ _ rfl rfl rfl rfl rfl (by decide)
  | addYX => cases h; exact .alu _ .Y _ _ rfl rfl rfl rfl rfl (by decide)
  | addYY => cases h; exact .alu _ .Y _ _ rfl rfl rfl rfl rfl (by decide)
  | subAA => cases h; exact .alu _ .A _ _ rfl rfl rfl rfl rfl (by decide)
  | subAB => cases h; exact .alu _ .A _ _ rfl rfl rfl rfl rfl (by decide)
  | subAX => cases h; exact .alu _ .A _ _ rfl rfl rfl rfl rfl (by decide)
  | subAY => cases h; exact .alu _ .A _ _ rfl rfl rfl rfl rfl (by decide)
  | subBA => cases h; exact .alu _ .B _ _ rfl rfl rfl rfl rfl (by decide)
  | subBB => cases h; exact .alu _ .B _ _ rfl rfl rfl rfl rfl (by decide)
  | subBX => cases h; exact .alu _ .B _ _ rfl rfl rfl rfl rfl (by decide)
  | subBY => cases h; exact .alu _ .B _ _ rfl rfl rfl rfl rfl (by decide)
  | subXA => cases h; exact .alu _ .X _ _ rfl rfl rfl rfl rfl (by decide)
  | subXB => cases h; exact .alu _ .X _ _ rfl rfl rfl rfl rfl (by decide)
  | subXX => cases h; exact .alu _ .X _ _ rfl rfl rfl rfl rfl (by decide)
  | subXY => cases h; exact .alu _ .X _ _ rfl rfl rfl rfl rfl (by decide)
  | subYA => cases h; exact .alu _ .Y _ _ rfl rfl rfl rfl rfl (by decide)
  | subYB => cases h; exact .alu _ .Y _ _ rfl rfl rfl rfl rfl (by decide)
  | subYX => cases h; exact .alu _ .Y _ _ rfl rfl rfl rfl rfl (by decide)
  | subYY => cases h; exact .alu _ .Y _ _ rfl rfl rfl rfl rfl (by decide)
  | pushA => cases h; exact .push .A _
  | pushB => cases h; exact .push .B _
  | pushX => cases h; exact .push .X _
  | pushY => cases h; exact .push .Y _
  | stA addr => cases h; exact .st .A addr _
  | stB addr => cases h; exact .st .B addr _
  | stX addr => cases h; exact .st .X addr _
  | stY addr => cases h; exact .st .Y addr _
  | sezA => cases h; exact .sez .A _
  | sezB => cases h; exact .sez .B _
  | sezX => cases h; exact .sez .X _
  | sezY => cases h; exact .sez .Y _
  | unmapped op =>
    cases h
    exact .same _ _ rfl rfl rfl (fun h => (unmapped_opcode h).1) (fun h => (unmapped_opcode h).2)
      ⟨nofun, nofun, nofun, nofun⟩ nofun

end Sys2Proof.Machine
end

