-- ==== Sys2Proof/Laws/Flags.lean ====
section
/-! SUPPORT. The flag operations bit by bit, and what an arithmetic result does to the state. -/

namespace Sys2Proof.Machine

theorem clearBit_bit (f : Byte) (i k : Nat) :
    (clearBit f i).getLsbD k = (f.getLsbD k && k != i) := by
  by_cases hk : k < 8
  · simp only [clearBit, BitVec.getLsbD_and, BitVec.getLsbD_not, BitVec.getLsbD_shiftLeft, BitVec.getLsbD_one, hk, decide_true,
      Bool.true_and]
    congr 1
    rw [Bool.eq_iff_iff]
    simp
    omega
  · rw [BitVec.getLsbD_of_ge _ _ (by omega), BitVec.getLsbD_of_ge _ _ (by omega), Bool.false_and]

theorem setBit_bit (f : Byte) (i k : Nat) (hi : i < 8) :
    (setBit f i).getLsbD k = (f.getLsbD k || k == i) := by
  by_cases hk : k < 8
  · simp only [setBit, BitVec.getLsbD_or, BitVec.getLsbD_shiftLeft, BitVec.getLsbD_one, hk, decide_true, Bool.true_and]
    congr 1
    rw [Bool.eq_iff_iff]
    simp
    omega
  · have h : (k == i) = false := by simp; omega
    rw [BitVec.getLsbD_of_ge _ _ (by omega), BitVec.getLsbD_of_ge _ _ (by omega), h, Bool.or_false]

/-- The flag check, bit by bit (R501). -/
theorem checkedFlags_bit (f v : Byte) (k : Nat) :
    (checkedFlags f v).getLsbD k = if k = 0 then decide (v = 0) else if k = 1 then decide (v ≠ 0) else f.getLsbD k := by
  unfold checkedFlags
  by_cases hv : v = 0
  · rw [if_pos hv, clearBit_bit, setBit_bit _ _ _ (by omega)]
    rcases k with _ | _ | k <;> simp [hv]
  · rw [if_neg hv, setBit_bit _ _ _ (by omega), clearBit_bit]
    have hv' : ¬ v = 0#8 := hv
    rcases k with _ | _ | k <;> simp [hv']

theorem flagsChecked_of_checkedFlags {s t : State} {v : Byte} (h : t.f = checkedFlags s.f v) : FlagsChecked s t v where
  z := by rw [h, checkedFlags_bit, if_pos rfl]
  n := by rw [h, checkedFlags_bit, if_neg (by omega), if_pos rfl]
  kept i hi := by rw [h, checkedFlags_bit, if_neg (by omega), if_neg (by omega)]

/-- All that an arithmetic or rotate result does. -/
theorem aluResult_done (r : Reg) (v : Byte) (s : State) : AluDone r v s (aluResult r v s) where
  dest := by simp [aluResult, flagCheck]
  others q hq := by simp [aluResult, flagCheck, setReg_reg_ne s hq]
  flags := flagsChecked_of_checkedFlags (by simp [aluResult, flagCheck])
  pc := by simp [aluResult, flagCheck]
  sp := by simp [aluResult, flagCheck]
  ram i := by simp [aluResult, flagCheck]
  rest := by constructor <;> simp [aluResult, flagCheck]

end Sys2Proof.Machine
end

