-- ==== Sys2Proof/Laws/Loader.lean ====
section
/-! SUPPORT. Reset and the Loader's operations keep memory in canonical form. -/

namespace Sys2Proof.Machine

theorem reset_memoryWf : State.reset.memoryWf = true := by decide

theorem loadCells_memWf {size size' : Nat} (hs : size' ≤ size) {m : Memory} (hm : memWf size m = true)
    (image : List Host.Cell) : memWf size (loadCells size' m image) = true := by
  induction image generalizing m with
  | nil => exact hm
  | cons c image ih =>
    obtain ⟨i, v⟩ := c
    unfold loadCells
    split
    · exact ih (memWf_memSet hm (by omega) v)
    · exact ih hm

theorem load_memoryWf {s : State} (h : s.memoryWf = true) (ramImage romImage : List Host.Cell) :
    (s.load ramImage romImage).memoryWf = true := by
  rw [memoryWf_iff] at h ⊢
  exact ⟨loadCells_memWf (by decide) h.1 ramImage, loadCells_memWf (Nat.le_refl _) h.2 romImage⟩

theorem boot_memoryWf (ramImage romImage : List Host.Cell) : (State.boot ramImage romImage).memoryWf = true :=
  load_memoryWf reset_memoryWf ramImage romImage

/-! The Loader changes RAM and ROM alone. -/

@[simp] theorem boot_run (ramImage romImage : List Host.Cell) : (State.boot ramImage romImage).run = .running := rfl
@[simp] theorem boot_pc (ramImage romImage : List Host.Cell) : (State.boot ramImage romImage).pc = 0 := rfl
@[simp] theorem boot_f (ramImage romImage : List Host.Cell) : (State.boot ramImage romImage).f = 0 := rfl
@[simp] theorem boot_sp (ramImage romImage : List Host.Cell) : (State.boot ramImage romImage).sp = 0 := rfl
@[simp] theorem boot_ir (ramImage romImage : List Host.Cell) : (State.boot ramImage romImage).ir = 0 := rfl
@[simp] theorem boot_mpL (ramImage romImage : List Host.Cell) : (State.boot ramImage romImage).mpL = 0 := rfl
@[simp] theorem boot_mpH (ramImage romImage : List Host.Cell) : (State.boot ramImage romImage).mpH = 0 := rfl
@[simp] theorem boot_trace (ramImage romImage : List Host.Cell) : (State.boot ramImage romImage).trace = [] := rfl
@[simp] theorem boot_deviceInput (ramImage romImage : List Host.Cell) : (State.boot ramImage romImage).deviceInput = [] := rfl
@[simp] theorem boot_draws (ramImage romImage : List Host.Cell) : (State.boot ramImage romImage).draws = 0 := rfl

/-- The key of a cell that exists lies inside the model's ROM. -/
theorem romKey_lt {s : State} (h : bankPresent s.mpH s.mpL = true) (addr : Addr) : s.romKey addr < Config.romSize := by
  rw [bankPresent_iff] at h
  have := addr.isLt
  simp only [State.romKey, romIndex, Config.romSize, Config.bankSize, Config.banksPerPage]
  omega

theorem placeByte_memoryWf {s : State} (h : s.memoryWf = true) (addr : Addr) (v : Byte) :
    (s.placeByte addr v).memoryWf = true := by
  unfold State.placeByte
  split
  · rename_i ht
    rw [memoryWf_iff] at h ⊢
    exact ⟨memWf_memSet h.1 (targetOf_eq_ram.1 ht) v, h.2⟩
  · split
    · rename_i hb
      rw [memoryWf_iff] at h ⊢
      exact ⟨h.1, memWf_memSet h.2 (romKey_lt hb addr) v⟩
    · exact h
  · exact h

theorem placeBytes_memoryWf {s : State} (h : s.memoryWf = true) (addr : Addr) (bytes : List Byte) :
    (s.placeBytes addr bytes).memoryWf = true := by
  induction bytes generalizing s addr with
  | nil => exact h
  | cons v rest ih => exact ih (placeByte_memoryWf h addr v) (addr + 1)

theorem withFetchWord_memoryWf {s : State} (h : s.memoryWf = true) (nbits w : Nat) :
    (s.withFetchWord nbits w).memoryWf = true := by
  apply placeBytes_memoryWf
  rw [memoryWf_iff] at h ⊢
  exact h

end Sys2Proof.Machine
end

