-- ==== Sys2Proof/Laws/PerInstr.lean ====
section
/-! SUPPORT. Families of lemmas with one member per constructor of `Instr`. -/

namespace Sys2Proof.Laws.EncodedLength

/-- The encoding has the length of the instruction's format (30_encoding.md R316). -/
def Statement (i : Instr) : Prop := (encode i).length = i.length

theorem nop : Statement .nop := rfl
theorem rst : Statement .rst := rfl
theorem hlt : Statement .hlt := rfl
theorem brk : Statement .brk := rfl
theorem ctn : Statement .ctn := rfl
theorem clc : Statement .clc := rfl
theorem cln : Statement .cln := rfl
theorem clz : Statement .clz := rfl
theorem clv : Statement .clv := rfl
theorem rolA : Statement .rolA := rfl
theorem rorA : Statement .rorA := rfl
theorem adiA (imm : Byte) : Statement (.adiA imm) := rfl
theorem sbiA (imm : Byte) : Statement (.sbiA imm) := rfl
theorem rolB : Statement .rolB := rfl
theorem rorB : Statement .rorB := rfl
theorem adiB (imm : Byte) : Statement (.adiB imm) := rfl
theorem sbiB (imm : Byte) : Statement (.sbiB imm) := rfl
theorem rolX : Statement .rolX := rfl
theorem rorX : Statement .rorX := rfl
theorem adiX (imm : Byte) : Statement (.adiX imm) := rfl
theorem sbiX (imm : Byte) : Statement (.sbiX imm) := rfl
theorem rolY : Statement .rolY := rfl
theorem rorY : Statement .rorY := rfl
theorem adiY (imm : Byte) : Statement (.adiY imm) := rfl
theorem sbiY (imm : Byte) : Statement (.sbiY imm) := rfl
theorem incA : Statement .incA := rfl
theorem decA : Statement .decA := rfl
theorem incB : Statement .incB := rfl
theorem decB : Statement .decB := rfl
theorem incX : Statement .incX := rfl
theorem decX : Statement .decX := rfl
theorem incY : Statement .incY := rfl
theorem decY : Statement .decY := rfl
theorem popA : Statement .popA := rfl
theorem peekA : Statement .peekA := rfl
theorem popB : Statement .popB := rfl
theorem peekB : Statement .peekB := rfl
theorem popX : Statement .popX := rfl
theorem peekX : Statement .peekX := rfl
theorem popY : Statement .popY := rfl
theorem peekY : Statement .peekY := rfl
theorem stiA : Statement .stiA := rfl
theorem stiB : Statement .stiB := rfl
theorem movBA : Statement .movBA := rfl
theorem movXA : Statement .movXA := rfl
theorem movYA : Statement .movYA := rfl
theorem movAB : Statement .movAB := rfl
theorem movXB : Statement .movXB := rfl
theorem movYB : Statement .movYB := rfl
theorem movAX : Statement .movAX := rfl
theorem movBX : Statement .movBX := rfl
theorem movYX : Statement .movYX := rfl
theorem movAY : Statement .movAY := rfl
theorem movBY : Statement .movBY := rfl
theorem movXY : Statement .movXY := rfl
theorem jmp (addr : Addr) : Statement (.jmp addr) := rfl
theorem jsr (addr : Addr) : Statement (.jsr addr) := rfl
theorem ret : Statement .ret := rfl
theorem jse (addr : Addr) : Statement (.jse addr) := rfl
theorem jsn (addr : Addr) : Statement (.jsn addr) := rfl
theorem bne (addr : Addr) : Statement (.bne addr) := rfl
theorem beq (addr : Addr) : Statement (.beq addr) := rfl
theorem addAA : Statement .addAA := rfl
theorem addAB : Statement .addAB := rfl
theorem addAX : Statement .addAX := rfl
theorem addAY : Statement .addAY := rfl
theorem addBA : Statement .addBA := rfl
theorem addBB : Statement .addBB := rfl
theorem addBX : Statement .addBX := rfl
theorem addBY : Statement .addBY := rfl
theorem addXA : Statement .addXA := rfl
theorem addXB : Statement .addXB := rfl
theorem addXX : Statement .addXX := rfl
theorem addXY : Statement .addXY := rfl
theorem addYA : Statement .addYA := rfl
theorem addYB : Statement .addYB := rfl
theorem addYX : Statement .addYX := rfl
theorem addYY : Statement .addYY := rfl
theorem subAA : Statement .subAA := rfl
theorem subAB : Statement .subAB := rfl
theorem subAX : Statement .subAX := rfl
theorem subAY : Statement .subAY := rfl
theorem subBA : Statement .subBA := rfl
theorem subBB : Statement .subBB := rfl
theorem subBX : Statement .subBX := rfl
theorem subBY : Statement .subBY := rfl
theorem subXA : Statement .subXA := rfl
theorem subXB : Statement .subXB := rfl
theorem subXX : Statement .subXX := rfl
theorem subXY : Statement .subXY := rfl
theorem subYA : Statement .subYA := rfl
theorem subYB : Statement .subYB := rfl
theorem subYX : Statement .subYX := rfl
theorem subYY : Statement .subYY := rfl
theorem pushA : Statement .pushA := rfl
theorem pushB : Statement .pushB := rfl
theorem pushX : Statement .pushX := rfl
theorem pushY : Statement .pushY := rfl
theorem stA (addr : Addr) : Statement (.stA addr) := rfl
theorem stB (addr : Addr) : Statement (.stB addr) := rfl
theorem stX (addr : Addr) : Statement (.stX addr) := rfl
theorem stY (addr : Addr) : Statement (.stY addr) := rfl
theorem sezA : Statement .sezA := rfl
theorem sezB : Statement .sezB := rfl
theorem sezX : Statement .sezX := rfl
theorem sezY : Statement .sezY := rfl
theorem unmapped (op : Byte) : Statement (.unmapped op) := rfl

end Sys2Proof.Laws.EncodedLength
end

