-- ==== Sys2Proof/Tests/Slice0.lean ====
section
/-! SUPPORT. Tests: ill-formed terms, words written out from the bit layouts of 30_encoding.md R309, the one-step vectors of
spec/95_test_vectors.md section L2 (each named by its row), and a witness for the hypotheses of every statement. -/

namespace Sys2Proof.Tests
open Sys2Proof.Machine

/-! ## Well-formedness -/

/-- Every mapped opcode is refused as an unmapped one: the first and last of each family and the single codes. -/
theorem test_wf_refuses_mapped_opcodes :
    ([0x00, 0x08, 0x10, 0x1F, 0x20, 0x21, 0x24, 0x2D, 0x30, 0x31, 0x3D, 0x40, 0x41, 0x61, 0x64, 0x66, 0x6E, 0x70, 0x76, 0x80,
      0x9F, 0xB0, 0xB3, 0xC0, 0xC3, 0xD0, 0xD5, 0xDA, 0xDF].all fun op => !(Instr.unmapped op).wf) = true := by decide

/-- Unmapped opcodes are admitted: the boundaries of R314's ranges. -/
theorem test_wf_admits_unmapped_opcodes :
    ([0x09, 0x0F, 0x22, 0x42, 0x60, 0x65, 0x6A, 0x6F, 0x77, 0x7F, 0xA0, 0xAF, 0xB4, 0xC4, 0xD1, 0xD4, 0xDE, 0xE0, 0xFF].all
      fun op => (Instr.unmapped op).wf) = true := by decide

/-! ## Decoding, every constructor -/

/-- The word decodes to the instruction, alone and with bytes after it. -/
def reads (word : List Byte) (i : Instr) : Bool :=
  (decode word).toOption == some (i, []) && (decode (word ++ [0xA5])).toOption == some (i, [0xA5])

theorem test_decode_control :
    (reads [0b00000000] .nop && reads [0b00000001] .rst && reads [0b00000010] .hlt && reads [0b00000011] .brk &&
    reads [0b00000100] .ctn && reads [0b00000101] .clc && reads [0b00000110] .cln && reads [0b00000111] .clz &&
    reads [0b00001000] .clv) = true := by decide

theorem test_decode_alu_single :
    (reads [0b00010000] .rolA && reads [0b00010001] .rorA && reads [0b00010010, 0b10000001] (.adiA 0x81) &&
    reads [0b00010011, 0b10000001] (.sbiA 0x81) && reads [0b00010100] .rolB && reads [0b00010101] .rorB &&
    reads [0b00010110, 0b10000001] (.adiB 0x81) && reads [0b00010111, 0b10000001] (.sbiB 0x81) &&
    reads [0b00011000] .rolX && reads [0b00011001] .rorX && reads [0b00011010, 0b10000001] (.adiX 0x81) &&
    reads [0b00011011, 0b10000001] (.sbiX 0x81) && reads [0b00011100] .rolY && reads [0b00011101] .rorY &&
    reads [0b00011110, 0b10000001] (.adiY 0x81) && reads [0b00011111, 0b10000001] (.sbiY 0x81) &&
    reads [0b00100000] .incA && reads [0b00100001] .decA && reads [0b00100100] .incB && reads [0b00100101] .decB &&
    reads [0b00101000] .incX && reads [0b00101001] .decX && reads [0b00101100] .incY && reads [0b00101101] .decY) = true := by decide

theorem test_decode_stack_read :
    (reads [0b00110000] .popA && reads [0b00110001] .peekA && reads [0b00110100] .popB &&
    reads [0b00110101] .peekB && reads [0b00111000] .popX && reads [0b00111001] .peekX &&
    reads [0b00111100] .popY && reads [0b00111101] .peekY) = true := by decide

theorem test_decode_store_indirect :
    (reads [0b01000000] .stiA && reads [0b01000001] .stiB) = true := by decide

theorem test_decode_move :
    (reads [0b01100001] .movBA && reads [0b01100010] .movXA && reads [0b01100011] .movYA &&
    reads [0b01100100] .movAB && reads [0b01100110] .movXB && reads [0b01100111] .movYB &&
    reads [0b01101000] .movAX && reads [0b01101001] .movBX && reads [0b01101011] .movYX &&
    reads [0b01101100] .movAY && reads [0b01101101] .movBY && reads [0b01101110] .movXY) = true := by decide

theorem test_decode_transfer :
    (reads [0b01110000, 0b00110100, 0b10010010] (.jmp 0x9234) &&
    reads [0b01110001, 0b00110100, 0b10010010] (.jsr 0x9234) && reads [0b01110010] .ret &&
    reads [0b01110011, 0b00110100, 0b10010010] (.jse 0x9234) &&
    reads [0b01110100, 0b00110100, 0b10010010] (.jsn 0x9234) &&
    reads [0b01110101, 0b00110100, 0b10010010] (.bne 0x9234) &&
    reads [0b01110110, 0b00110100, 0b10010010] (.beq 0x9234)) = true := by decide

theorem test_decode_alu_pairwise :
    (reads [0b10000000] .addAA && reads [0b10000001] .addAB && reads [0b10000010] .addAX &&
    reads [0b10000011] .addAY && reads [0b10000100] .addBA && reads [0b10000101] .addBB &&
    reads [0b10000110] .addBX && reads [0b10000111] .addBY && reads [0b10001000] .addXA &&
    reads [0b10001001] .addXB && reads [0b10001010] .addXX && reads [0b10001011] .addXY &&
    reads [0b10001100] .addYA && reads [0b10001101] .addYB && reads [0b10001110] .addYX &&
    reads [0b10001111] .addYY && reads [0b10010000] .subAA && reads [0b10010001] .subAB &&
    reads [0b10010010] .subAX && reads [0b10010011] .subAY && reads [0b10010100] .subBA &&
    reads [0b10010101] .subBB && reads [0b10010110] .subBX && reads [0b10010111] .subBY &&
    reads [0b10011000] .subXA && reads [0b10011001] .subXB && reads [0b10011010] .subXX &&
    reads [0b10011011] .subXY && reads [0b10011100] .subYA && reads [0b10011101] .subYB &&
    reads [0b10011110] .subYX && reads [0b10011111] .subYY) = true := by decide

theorem test_decode_stack_push :
    (reads [0b10110000] .pushA && reads [0b10110001] .pushB && reads [0b10110010] .pushX && reads [0b10110011] .pushY) = true := by decide

theorem test_decode_store_absolute :
    (reads [0b11000000, 0b00110100, 0b10010010] (.stA 0x9234) &&
    reads [0b11000001, 0b00110100, 0b10010010] (.stB 0x9234) &&
    reads [0b11000010, 0b00110100, 0b10010010] (.stX 0x9234) &&
    reads [0b11000011, 0b00110100, 0b10010010] (.stY 0x9234)) = true := by decide

theorem test_decode_set_flag :
    (reads [0b11010000] .sezA && reads [0b11010101] .sezB && reads [0b11011010] .sezX && reads [0b11011111] .sezY) = true := by decide

theorem test_decode_unmapped : (reads [0b00001001] (.unmapped 0x09) && reads [0b01100101] (.unmapped 0x65) &&
    reads [0b11100111] (.unmapped 0xE7)) = true := by decide

/-- A string that ends inside an instruction is rejected by name. -/
theorem test_decode_rejects_truncated : decode [] = .error .noOpcode ∧ decode [0x12] = .error .noImmediate ∧
    decode [0x70] = .error .noAddress ∧ decode [0xC0, 0x00] = .error .noAddress := ⟨rfl, rfl, rfl, rfl⟩

/-- The host's word of a format W row, and of a one-byte row. -/
theorem test_decode_table_word : decodeTableWord 24 0x201070 = some (.jmp 0x2010) ∧ decodeTableWord 8 0x21 = some .decA := by
  decide

/-! ## One step -/

/-- `u` with the bytes placed at PC, as the Loader would. -/
def put (bytes : List Byte) (u : State) : State := u.placeBytes u.pc bytes

/-- With the bytes placed at PC, one step from `u` gives `change` of the state it began in, and nothing else. -/
def goes (bytes : List Byte) (u : State) (change : State → State) : Bool :=
  match step (put bytes u) with
  | .next t => t == change (put bytes u)
  | _ => false

/-- Reset, with PC where most of the vectors start. -/
def base : State := State.reset.setPc 0x0100

/-- A RAM cell set. -/
def ramAt (u : State) (k : Nat) (v : Byte) : State := u.setRam (memSet u.ram k v)

theorem test_control_1_nop : goes [0x00] { base with ir := 0x21 }
    (fun u => { u with ir := 0x00, pc := 0x0101 }) = true := by decide

theorem test_control_3_rst : goes [0x01] { base with a := 0x55, sp := 0x10 }
    (fun u => { u with ir := 0x01, pc := 0x0101 }) = true := by decide

theorem test_control_4_hlt : goes [0x02] base
    (fun u => { u with ir := 0x02, pc := 0x0101, run := .halted }) = true := by decide

theorem test_control_5_brk : goes [0x03] base
    (fun u => { u with ir := 0x03, pc := 0x0101 }) = true := by decide

theorem test_control_6_ctn : goes [0x04] base
    (fun u => { u with ir := 0x04, pc := 0x0101 }) = true := by decide

theorem test_control_7_clc : goes [0x05] { base with f := 0xFF }
    (fun u => { u with f := 0xFB, ir := 0x05, pc := 0x0101 }) = true := by decide

theorem test_control_8_cln : goes [0x06] { base with f := 0x02 }
    (fun u => { u with f := 0x00, ir := 0x06, pc := 0x0101 }) = true := by decide

theorem test_control_9_clz : goes [0x07] { base with f := 0x01 }
    (fun u => { u with f := 0x00, ir := 0x07, pc := 0x0101 }) = true := by decide

theorem test_control_10_clv : goes [0x08] { base with f := 0x0F }
    (fun u => { u with f := 0x07, ir := 0x08, pc := 0x0101 }) = true := by decide

theorem test_control_11_unmapped : goes [0xE7] { base with f := 0x02 }
    (fun u => { u with ir := 0xE7, pc := 0x0101 }) = true := by decide

theorem test_control_12_unmapped_without_flag_check : goes [0x22] { base with f := 0x02 }
    (fun u => { u with ir := 0x22, pc := 0x0101 }) = true := by decide

theorem test_alu_single_1_rol_a : goes [0x10] { base with a := 0x80 }
    (fun u => { u with a := 0x01, f := 0x02, ir := 0x10, pc := 0x0101 }) = true := by decide

theorem test_alu_single_2_rol_b_zero : goes [0x14] { base with f := 0x02 }
    (fun u => { u with f := 0x01, ir := 0x14, pc := 0x0101 }) = true := by decide

theorem test_alu_single_3_ror_x : goes [0x19] { base with x := 0x01 }
    (fun u => { u with x := 0x80, f := 0x02, ir := 0x19, pc := 0x0101 }) = true := by decide

theorem test_alu_single_4_ror_y_keeps_flags : goes [0x1D] { base with y := 0xFE, f := 0x0C }
    (fun u => { u with y := 0x7F, f := 0x0E, ir := 0x1D, pc := 0x0101 }) = true := by decide

theorem test_alu_single_5_adi_a_wraps : goes [0x12, 0x01] { base with a := 0xFF }
    (fun u => { u with a := 0x00, f := 0x01, ir := 0x12, pc := 0x0102 }) = true := by decide

theorem test_alu_single_6_adi_x_zero : goes [0x1A, 0x00] base
    (fun u => { u with f := 0x01, ir := 0x1A, pc := 0x0102 }) = true := by decide

theorem test_alu_single_7_sbi_b_below_zero : goes [0x17, 0x01] base
    (fun u => { u with b := 0xFF, f := 0x02, ir := 0x17, pc := 0x0102 }) = true := by decide

theorem test_alu_single_8_sbi_y_equal : goes [0x1F, 0x37] { base with y := 0x37 }
    (fun u => { u with y := 0x00, f := 0x01, ir := 0x1F, pc := 0x0102 }) = true := by decide

theorem test_alu_single_9_inc_a : goes [0x20] { base with a := 0xFF }
    (fun u => { u with a := 0x00, f := 0x01, ir := 0x20, pc := 0x0101 }) = true := by decide

theorem test_alu_single_10_inc_y : goes [0x2C] { base with y := 0x7F }
    (fun u => { u with y := 0x80, f := 0x02, ir := 0x2C, pc := 0x0101 }) = true := by decide

theorem test_alu_single_11_dec_b : goes [0x25] base
    (fun u => { u with b := 0xFF, f := 0x02, ir := 0x25, pc := 0x0101 }) = true := by decide

theorem test_alu_single_12_dec_x : goes [0x29] { base with x := 0x01, f := 0x02 }
    (fun u => { u with x := 0x00, f := 0x01, ir := 0x29, pc := 0x0101 }) = true := by decide

theorem test_alu_single_13_adi_straddles_ram_and_rom : goes [0x12, 0x05] { State.reset with pc := 0x7FFF, a := 0x01 }
    (fun u => { u with a := 0x06, f := 0x02, ir := 0x12, pc := 0x8001 }) = true := by decide

theorem test_stack_read_1_pop_a : goes [0x30] (ramAt { base with sp := 0x02 } 0x7F01 0x99)
    (fun u => { u with a := 0x99, sp := 0x01, ir := 0x30, pc := 0x0101 }) = true := by decide

theorem test_stack_read_2_pop_y_wraps : goes [0x3C] (ramAt base 0x7FFF 0xAB)
    (fun u => { u with y := 0xAB, sp := 0xFF, ir := 0x3C, pc := 0x0101 }) = true := by decide

theorem test_stack_read_3_peek_b : goes [0x35] (ramAt (ramAt { base with sp := 0x02 } 0x7F02 0x5A) 0x7F01 0x99)
    (fun u => { u with b := 0x5A, ir := 0x35, pc := 0x0101 }) = true := by decide

theorem test_stack_read_4_peek_x : goes [0x39] base
    (fun u => { u with ir := 0x39, pc := 0x0101 }) = true := by decide

theorem test_store_indirect_1_sti_a_to_ram : goes [0x40] { base with a := 0x48, y := 0x20 }
    (fun u => { (ramAt u 0x2000 0x48) with ir := 0x40, pc := 0x0101 }) = true := by decide

theorem test_store_indirect_2_sti_b_to_device : goes [0x41] { base with b := 0x48, x := 0xF1, y := 0xFF }
    (fun u => { u with ir := 0x41, pc := 0x0101, trace := [.devWrite 0xFFF1 0x48] }) = true := by decide

theorem test_store_indirect_3_sti_a_to_page_register : goes [0x40] { base with a := 0x07, x := 0xFA, y := 0xFF }
    (fun u => { u with mpL := 0x07, ir := 0x40, pc := 0x0101 }) = true := by decide

theorem test_store_indirect_5_sti_b_to_rom_top : goes [0x41] { base with b := 0x22, x := 0xFE, y := 0xFF }
    (fun u => { u with ir := 0x41, pc := 0x0101, trace := [.readOnlyViolation 0xFFFE 0x22] }) = true := by decide

theorem test_move_1_mov_b_a : goes [0x61] { base with a := 0x42 }
    (fun u => { u with b := 0x42, ir := 0x61, pc := 0x0101 }) = true := by decide

theorem test_move_2_mov_a_y_keeps_flags : goes [0x6C] { base with a := 0x10, f := 0x02 }
    (fun u => { u with a := 0x00, ir := 0x6C, pc := 0x0101 }) = true := by decide

theorem test_move_3_mov_x_b : goes [0x66] { base with b := 0xC3 }
    (fun u => { u with x := 0xC3, ir := 0x66, pc := 0x0101 }) = true := by decide

theorem test_transfer_1_jmp : goes [0x70, 0x00, 0x80] { State.reset with pc := 0x0005 }
    (fun u => { u with ir := 0x70, pc := 0x8000 }) = true := by decide

theorem test_transfer_3_jsr_wraps_stack : goes [0x71, 0x00, 0x20] { State.reset with pc := 0x0300, sp := 0xFF }
    (fun u => { (ramAt (ramAt u 0x7FFF 0x03) 0x7F00 0x03) with sp := 0x01, ir := 0x71, pc := 0x2000 }) = true := by decide

theorem test_transfer_4_jsr_at_top_of_memory : goes [0x71, 0x40, 0x00] { State.reset with pc := 0xFFFD }
    (fun u => { u with sp := 0x02, ir := 0x71, pc := 0x0040 }) = true := by decide +kernel

theorem test_transfer_5_ret : goes [0x72] (ramAt { State.reset with pc := 0x0011, sp := 0x03 } 0x7F01 0x06)
    (fun u => { u with sp := 0x01, ir := 0x72, pc := 0x0006 }) = true := by decide

theorem test_transfer_6_ret_wraps : goes [0x72] (ramAt (ramAt { State.reset with pc := 0x0011 } 0x7FFF 0x12) 0x7FFE 0x34)
    (fun u => { u with sp := 0xFE, ir := 0x72, pc := 0x1234 }) = true := by decide

theorem test_transfer_7_jse_taken : goes [0x73, 0x00, 0x30] { State.reset with pc := 0x0020, f := 0x01 }
    (fun u => { (ramAt u 0x7F00 0x23) with sp := 0x02, ir := 0x73, pc := 0x3000 }) = true := by decide

theorem test_transfer_8_jse_not_taken : goes [0x73, 0x00, 0x30] { State.reset with pc := 0x0020, f := 0x02 }
    (fun u => { u with ir := 0x73, pc := 0x0023 }) = true := by decide

theorem test_transfer_9_jsn_taken : goes [0x74, 0x00, 0x30] { State.reset with pc := 0x0020 }
    (fun u => { (ramAt u 0x7F00 0x23) with sp := 0x02, ir := 0x74, pc := 0x3000 }) = true := by decide

theorem test_transfer_10_jsn_not_taken : goes [0x74, 0x00, 0x30] { State.reset with pc := 0x0020, f := 0x03 }
    (fun u => { u with ir := 0x74, pc := 0x0023 }) = true := by decide

theorem test_transfer_11_bne_taken : goes [0x75, 0x02, 0x00] { State.reset with pc := 0x0004, f := 0x02 }
    (fun u => { u with ir := 0x75, pc := 0x0002 }) = true := by decide

theorem test_transfer_12_bne_not_taken : goes [0x75, 0x02, 0x00] { State.reset with pc := 0x0004, f := 0x01 }
    (fun u => { u with ir := 0x75, pc := 0x0007 }) = true := by decide

theorem test_transfer_13_beq_taken : goes [0x76, 0x08, 0x00] { State.reset with pc := 0x0003, f := 0x03 }
    (fun u => { u with ir := 0x76, pc := 0x0008 }) = true := by decide

theorem test_transfer_14_beq_not_taken : goes [0x76, 0x08, 0x00] { State.reset with pc := 0x0003, f := 0x02 }
    (fun u => { u with ir := 0x76, pc := 0x0006 }) = true := by decide

theorem test_alu_pairwise_1_add_a_a : goes [0x80] { base with a := 0x7F }
    (fun u => { u with a := 0xFE, f := 0x02, ir := 0x80, pc := 0x0101 }) = true := by decide

theorem test_alu_pairwise_3_add_a_b : goes [0x81] { base with a := 0x12, b := 0x34 }
    (fun u => { u with a := 0x46, f := 0x02, ir := 0x81, pc := 0x0101 }) = true := by decide

theorem test_alu_pairwise_4_add_y_x_wraps : goes [0x8E] { base with y := 0xFF, x := 0x01 }
    (fun u => { u with y := 0x00, f := 0x01, ir := 0x8E, pc := 0x0101 }) = true := by decide

theorem test_alu_pairwise_5_add_b_y_keeps_flags : goes [0x87] { base with b := 0x01, y := 0x01, f := 0x0D }
    (fun u => { u with b := 0x02, f := 0x0E, ir := 0x87, pc := 0x0101 }) = true := by decide

theorem test_alu_pairwise_6_sub_a_a : goes [0x90] { base with a := 0x5C, f := 0x02 }
    (fun u => { u with a := 0x00, f := 0x01, ir := 0x90, pc := 0x0101 }) = true := by decide

theorem test_alu_pairwise_7_sub_x_a_below_zero : goes [0x98] { base with a := 0x01 }
    (fun u => { u with x := 0xFF, f := 0x02, ir := 0x98, pc := 0x0101 }) = true := by decide

theorem test_alu_pairwise_8_sub_b_a_equal : goes [0x94] { base with a := 0x81, b := 0x81 }
    (fun u => { u with b := 0x00, f := 0x01, ir := 0x94, pc := 0x0101 }) = true := by decide

theorem test_alu_pairwise_9_sub_y_b : goes [0x9D] { base with y := 0x50, b := 0x20 }
    (fun u => { u with y := 0x30, f := 0x02, ir := 0x9D, pc := 0x0101 }) = true := by decide

theorem test_stack_push_1_push_a : goes [0xB0] { base with a := 0x42 }
    (fun u => { (ramAt u 0x7F00 0x42) with sp := 0x01, ir := 0xB0, pc := 0x0101 }) = true := by decide

theorem test_stack_push_2_push_y_wraps : goes [0xB3] { base with y := 0x9C, sp := 0xFF }
    (fun u => { (ramAt u 0x7FFF 0x9C) with sp := 0x00, ir := 0xB3, pc := 0x0101 }) = true := by decide

theorem test_store_absolute_1_st_a : goes [0xC0, 0x00, 0x10] { base with a := 0x0F }
    (fun u => { (ramAt u 0x1000 0x0F) with ir := 0xC0, pc := 0x0103 }) = true := by decide

theorem test_store_absolute_2_st_x_to_page_register : goes [0xC2, 0xFB, 0xFF] { base with x := 0x03 }
    (fun u => { u with mpH := 0x03, ir := 0xC2, pc := 0x0103 }) = true := by decide

theorem test_store_absolute_3_st_b_to_rom : goes [0xC1, 0x00, 0x80] { base with b := 0x48 }
    (fun u => { u with ir := 0xC1, pc := 0x0103, trace := [.readOnlyViolation 0x8000 0x48] }) = true := by decide

theorem test_store_absolute_4_st_y_to_device : goes [0xC3, 0xF2, 0xFF] { base with y := 0x5A }
    (fun u => { u with ir := 0xC3, pc := 0x0103, trace := [.devWrite 0xFFF2 0x5A] }) = true := by decide

theorem test_store_absolute_6_st_a_after_its_operand : goes [0xC0, 0x03, 0x01] { base with a := 0x02 }
    (fun u => { (ramAt u 0x0103 0x02) with ir := 0xC0, pc := 0x0103 }) = true := by decide

theorem test_set_flag_1_sez_a : goes [0xD0] { base with f := 0x02 }
    (fun u => { u with f := 0x03, ir := 0xD0, pc := 0x0101 }) = true := by decide

theorem test_set_flag_2_sez_y : goes [0xDF] base
    (fun u => { u with f := 0x01, ir := 0xDF, pc := 0x0101 }) = true := by decide

/-- The vector fetch-1: the opcode comes from the Keyboard port. -/
theorem test_fetch_1_opcode_from_device : goes [] { State.reset with pc := 0xFFF0, deviceInput := [0x20] }
    (fun u => { u with a := 0x01, f := 0x02, ir := 0x20, pc := 0xFFF1, deviceInput := [], trace := [.devRead 0xFFF0 0x20] }) = true := by decide

theorem test_fetch_2_opcode_from_page_register : goes [] { State.reset with pc := 0xFFFA, mpL := 0x02 }
    (fun u => { u with ir := 0x02, pc := 0xFFFB, run := .halted }) = true := by decide

theorem test_fetch_3_nop_wraps_pc : goes [0x00] { State.reset with pc := 0xFFFF }
    (fun u => { u with pc := 0x0000 }) = true := by decide

/-- A halted machine does nothing, even with PC at a device port (spec/95_test_vectors.md, section L2). -/
theorem test_halted_is_inert : goes [] { State.reset with run := .halted, pc := 0xFFF0, deviceInput := [0x20] } (fun u => u) =
    true := by decide

/-! ## Witnesses: each statement's hypotheses can be met -/

/-- A state with an image loaded, for the statements over any image. -/
theorem test_witness_image : memWf 0x7F00 [(0x0000, 0x12), (0x7EFF, 0x02)] = true ∧
    memWf Config.romSize [(0, 0x1A), (romIndex 254 254 0x7FFF, 0x02)] = true := by decide

theorem test_witness_boot_reads_image :
    memGet (State.boot [(0x7EFF, 0x02), (0x7F00, 0x55)] []).ram 0x7EFF = 0x02 ∧
    memGet (State.boot [(0x7EFF, 0x02), (0x7F00, 0x55)] []).ram 0x7F00 = 0x00 ∧
    memGet (State.boot [] [(romIndex 0 1 0, 0x1A)]).rom (romIndex 0 1 0) = 0x1A := by decide

/-- The first fetch and the ROM window at both ends, with an image that tells bank (0, 0) from its neighbours. -/
theorem test_witness_reset_entry :
    let s := State.boot [(0, 0x12)] [(romIndex 0 0 0, 0x1A), (romIndex 0 0 0x7FFF, 0x2B), (romIndex 0 1 0, 0x3C), (romIndex 1 0 0, 0x4D)]
    (fetchOpcode s).1 = 0x12 ∧ targetOf 0x8000 = .rom ∧ (memRead s 0x8000).1 = 0x1A ∧ targetOf 0xFFFF = .rom ∧
    (memRead s 0xFFFF).1 = 0x2B := by decide +kernel

theorem test_witness_well_formed : (Instr.unmapped 0x65).wf = true ∧ (Instr.jmp 0xFFFF).wf = true := by decide

theorem test_witness_decoded : decode [0x12, 0x42, 0x00] = .ok (.adiA 0x42, [0x00]) ∧
    decode [0x70, 0x10, 0x20] = .ok (.jmp 0x2010, []) := ⟨rfl, rfl⟩

/-- A RUNNING state with an instruction's bytes at PC: in RAM, across RAM and ROM, across a device-free end of memory. -/
theorem test_witness_runs_from :
    (put [0x70, 0x10, 0x20] base).run = .running ∧ (put [0x70, 0x10, 0x20] base).holds 0x0100 [0x70, 0x10, 0x20] = true ∧
    (put [0x12, 0x05] { State.reset with pc := 0x7FFF }).holds 0x7FFF [0x12, 0x05] = true ∧
    (put [0x71, 0x40, 0x00] { State.reset with pc := 0xFFFD }).holds 0xFFFD [0x71, 0x40, 0x00] = true := by decide

/-- A RUNNING state whose step answers a next state. -/
theorem test_witness_step : State.reset.run = .running ∧ ∃ t, step State.reset = .next t := ⟨rfl, _, rfl⟩

theorem test_witness_halted : (State.reset.setRun .halted).run = .halted := rfl

/-- The targets at the boundaries of the address map (20_memory.md R202). -/
theorem test_address_map_boundaries :
    [0x0000, 0x7FFF, 0x8000, 0xFFEF, 0xFFF0, 0xFFF9, 0xFFFA, 0xFFFB, 0xFFFC, 0xFFFF].map targetOf =
      [.ram, .ram, .rom, .rom, .device, .device, .pageLow, .pageHigh, .rom, .rom] := by decide

/-- Reads at the same boundaries. -/
theorem test_read_boundaries :
    let s : State := { State.reset with
      mpL := 1, mpH := 2, deviceInput := [0x55, 0x66], ram := [(0x7FFF, 0x11)],
      rom := [(romIndex 2 1 0, 0x22), (romIndex 2 1 0x7FEF, 0x33), (romIndex 2 1 0x7FF0, 0x99), (romIndex 2 1 0x7FFC, 0x44)] }
    (memRead s 0x7FFF).1 = 0x11 ∧ (memRead s 0x8000).1 = 0x22 ∧ (memRead s 0xFFEF).1 = 0x33 ∧ (memRead s 0xFFF0).1 = 0x55 ∧
    (memRead s 0xFFF9).1 = 0x55 ∧ (memRead s 0xFFFA).1 = 1 ∧ (memRead s 0xFFFB).1 = 2 ∧ (memRead s 0xFFFC).1 = 0x44 := by decide

/-- A read of an absent bank draws one free value and changes nothing else, whichever page register is 0xFF. -/
theorem test_read_absent_bank :
    (memRead { State.reset with mpL := 0xFF } 0x8000).2 = { State.reset with mpL := 0xFF, draws := 1 } ∧
    (memRead { State.reset with mpH := 0xFF } 0xFFFC).2 = { State.reset with mpH := 0xFF, draws := 1 } := by decide

/-- Writes at the same boundaries. -/
theorem test_write_boundaries :
    memWrite State.reset 0x7FFF 9 = { State.reset with ram := [(0x7FFF, 9)] } ∧
    memWrite State.reset 0x8000 9 = { State.reset with trace := [.readOnlyViolation 0x8000 9] } ∧
    memWrite State.reset 0xFFEF 9 = { State.reset with trace := [.readOnlyViolation 0xFFEF 9] } ∧
    memWrite State.reset 0xFFF0 9 = { State.reset with trace := [.devWrite 0xFFF0 9] } ∧
    memWrite State.reset 0xFFF9 9 = { State.reset with trace := [.devWrite 0xFFF9 9] } ∧
    memWrite State.reset 0xFFFA 9 = { State.reset with mpL := 9 } ∧ memWrite State.reset 0xFFFB 9 = { State.reset with mpH := 9 } ∧
    memWrite State.reset 0xFFFC 9 = { State.reset with trace := [.readOnlyViolation 0xFFFC 9] } := by decide

/-- A ROM address and present banks, for the statement on page-select writes. -/
theorem test_witness_page_write : targetOf 0x8000 = .rom ∧ State.reset.mpH.toNat ≤ 254 ∧ State.reset.mpL.toNat ≤ 254 ∧
    (0xFE : Byte).toNat ≤ 254 := by decide

theorem test_witness_device_answer : targetOf 0xFFF0 = .device ∧
    ({ State.reset with deviceInput := [0x20, 0x21] } : State).deviceInput = 0x20 :: [0x21] := by decide

theorem test_witness_rom_cells : bankPresent 0 0 = true ∧ bankPresent 254 254 = true ∧ bankPresent 255 0 = false := by decide

theorem test_witness_canonical : memWf 0x8000 [(3, 1), (7, 2)] = true ∧ memWf 0x8000 [(7, 2), (3, 1)] = false ∧
    memWf 0x8000 [(3, 0)] = false ∧ memWf 0x8000 [(0x8000, 1)] = false := by decide

theorem test_witness_pop_at_zero : State.reset.sp = 0 := rfl

/-- Four stack instructions in a row, each with a next state, into two registers and into one. -/
theorem test_witness_pushes_pop : ∃ u v w t, exec (.push .A) State.reset = .next u ∧ exec (.push .B) u = .next v ∧
    exec (.pop .X) v = .next w ∧ exec (.pop .X) w = .next t := ⟨_, _, _, _, rfl, rfl, rfl, rfl⟩

/-- A call, and a return from the state it leaves. -/
theorem test_witness_return : ∃ u t, exec (.jsr 0x2000) State.reset = .next u ∧ u.sp = u.sp ∧ exec .ret u = .next t :=
  ⟨_, _, rfl, rfl, rfl⟩

theorem test_witness_unmapped : isUnmapped 0x09 = true ∧ isUnmapped 0xFF = true := by decide

theorem test_witness_mov : Reg.B ≠ Reg.A := by decide

theorem test_witness_store : (0x7FFF#16).toNat ≤ 0x7FFF ∧ ∃ t, exec (.st .A 0x7FFF) State.reset = .next t :=
  ⟨by decide, _, rfl⟩

/-- Every branch of the statement on the writers of F: a flag check, the four clears, SEZ, and none of them. -/
theorem test_witness_writers_of_flags :
    [Instr.incA, .clc, .cln, .clz, .clv, .sezX, .nop, .unmapped 0x22].all Instr.wf = true ∧
    (∃ t, exec .incA State.reset = .next t) ∧ (∃ t, exec .clc State.reset = .next t) ∧ (∃ t, exec .cln State.reset = .next t) ∧
    (∃ t, exec .clz State.reset = .next t) ∧ (∃ t, exec .clv State.reset = .next t) ∧ (∃ t, exec .sezX State.reset = .next t) ∧
    (∃ t, exec (.unmapped 0x22) State.reset = .next t) :=
  ⟨by decide, ⟨_, rfl⟩, ⟨_, rfl⟩, ⟨_, rfl⟩, ⟨_, rfl⟩, ⟨_, rfl⟩, ⟨_, rfl⟩, ⟨_, rfl⟩⟩

/-- An instruction that changes a register. -/
theorem test_witness_writers_of_registers : ∃ t, exec .incA State.reset = .next t ∧ t.reg .A ≠ State.reset.reg .A :=
  ⟨_, rfl, by decide⟩

/-- A store, a push and a call that change RAM bytes. -/
theorem test_witness_writers_of_ram :
    (∃ t, exec (.stA 0x7FFF) { State.reset with a := 1 } = .next t ∧ memGet t.ram 0x7FFF ≠ 0) ∧
    (∃ t, exec .pushA { State.reset with a := 1 } = .next t ∧ memGet t.ram 0x7F00 ≠ 0) ∧
    (∃ t, exec (.jsr 0) { State.reset with pc := 0x0101, sp := 0xFF } = .next t ∧ memGet t.ram 0x7FFF ≠ 0 ∧ memGet t.ram 0x7F00 ≠ 0) :=
  ⟨⟨_, rfl, by decide⟩, ⟨_, rfl, by decide⟩, ⟨_, rfl, by decide⟩⟩

/-- A step that changes each page-select register. -/
theorem test_witness_writers_of_page_registers :
    (∃ t, step (put [0xC0, 0xFA, 0xFF] { base with a := 7 }) = .next t ∧ t.mpL ≠ 0) ∧
    (∃ t, step (put [0xC0, 0xFB, 0xFF] { base with a := 7 }) = .next t ∧ t.mpH ≠ 0) :=
  ⟨⟨_, rfl, by decide⟩, ⟨_, rfl, by decide⟩⟩

theorem test_witness_cycles : ∃ t, cycles 2 State.reset = .next t := ⟨_, rfl⟩

/-- A cycle with a device read and a store's event. -/
theorem test_witness_events : ∃ t, step { State.reset with pc := 0xFFF7, deviceInput := [0xC0, 0xF1, 0xFF] } = .next t ∧
    t.trace = [.devRead 0xFFF7 0xC0, .devRead 0xFFF8 0xF1, .devRead 0xFFF9 0xFF, .devWrite 0xFFF1 0x00] :=
  ⟨_, rfl, by decide⟩

/-- Steps that clear each of the two reserved flags. -/
theorem test_witness_reserved_flags :
    (∃ t, step (put [0x05] { base with f := 0x04 }) = .next t ∧ t.f = 0) ∧
    (∃ t, step (put [0x08] { base with f := 0x08 }) = .next t ∧ t.f = 0) :=
  ⟨⟨_, rfl, by decide⟩, ⟨_, rfl, by decide⟩⟩

theorem test_witness_invariant : State.reset.inv = true ∧ ∃ t, step State.reset = .next t := ⟨by decide, _, rfl⟩

/-- A table word placed at PC, and one moved from a PC that cannot hold it. -/
theorem test_witness_fetch_word : decodeTableWord 16 0x0112 = some (.adiA 0x01) ∧
    (State.reset.withFetchWord 16 0x0112).ram = [(0, 0x12), (1, 0x01)] ∧
    ((State.reset.setPc 0xFFF0).withFetchWord 16 0x0112).pc = 0 := by decide

end Sys2Proof.Tests
end

section
/-! # The state family: what the shared operations and one instruction leave in F, IR and the run state

Lemmas about the model's operations first, in the order of the definitions; then the statements of 10_state.md. -/

namespace Sys2Proof.Machine

/-! ## The decoder -/

/-- The opcode map inverts the bit layouts: whatever the operand bytes, an instruction's opcode is the byte it was
decoded from (30_encoding.md R309, R313, R314). -/
theorem opcodeOf_instrOf (op b1 b2 : Byte) : opcodeOf (instrOf op b1 b2) = op := by
  unfold instrOf
  split <;> rfl

/-! ## The fetch -/

/-- The opcode fetch reads the byte at PC. -/
theorem fetchOpcode_fst (s : State) : (fetchOpcode s).1 = (memRead s s.pc).1 := rfl

/-- Operand fetches leave in IR the opcode that was read at PC (10_state.md R125). -/
theorem fetchInstr_ir (s : State) : (fetchInstr s).2.ir = (memRead s s.pc).1 := by
  simp only [fetchInstr]
  split <;> simp [fetchOpcode_fst]

/-- The instruction fetched has the opcode in IR, in each of the three formats. -/
theorem opcodeOf_fetchInstr (s : State) : opcodeOf (fetchInstr s).1 = (fetchInstr s).2.ir := by
  simp only [fetchInstr]
  split <;> simp [opcodeOf_instrOf]

/-! ## Writing a register: F, IR and the run state -/

section
variable (r d q : Reg) (v : Byte) (s : State)

@[simp] theorem aluResult_f : (aluResult r v s).f = checkedFlags s.f v := by simp [aluResult, flagCheck]
@[simp] theorem aluResult_ir : (aluResult r v s).ir = s.ir := by simp [aluResult, flagCheck]
@[simp] theorem aluResult_run : (aluResult r v s).run = s.run := by simp [aluResult, flagCheck]

@[simp] theorem popInto_f : (popInto r s).f = s.f := by simp [popInto]
@[simp] theorem popInto_ir : (popInto r s).ir = s.ir := by simp [popInto]
@[simp] theorem popInto_run : (popInto r s).run = s.run := by simp [popInto]

@[simp] theorem peekInto_f : (peekInto r s).f = s.f := by simp [peekInto]
@[simp] theorem peekInto_ir : (peekInto r s).ir = s.ir := by simp [peekInto]
@[simp] theorem peekInto_run : (peekInto r s).run = s.run := by simp [peekInto]

@[simp] theorem moveReg_f : (moveReg d q s).f = s.f := by simp [moveReg]
@[simp] theorem moveReg_ir : (moveReg d q s).ir = s.ir := by simp [moveReg]
@[simp] theorem moveReg_run : (moveReg d q s).run = s.run := by simp [moveReg]

end

/-! ## One instruction -/

/-- Every instruction answers a next state: no fault, no refusal (30_encoding.md R306; log 9). -/
theorem exec_answers_next (i : Instr) (s : State) : ∃ t, exec i s = .next t := by
  cases i <;> exact ⟨_, rfl⟩

section
variable {i : Instr} {s t : State}

/-- No instruction writes IR; only the opcode fetch does (10_state.md R125). -/
theorem exec_ir (h : exec i s = .next t) : t.ir = s.ir := by
  cases exec_shape h <;> simp

/-- Only HLT changes the run state (10_state.md R128). -/
theorem exec_run_of_ne_hlt (h : exec i s = .next t) (hi : i ≠ .hlt) : t.run = s.run := by
  cases exec_shape h with
  | halt => exact absurd rfl hi
  | _ => simp

theorem exec_run_halted_iff (h : exec i s = .next t) : t.run = .halted ↔ s.run = .halted ∨ i = .hlt := by
  by_cases hi : i = .hlt
  · subst hi
    cases h
    simp
  · simp [exec_run_of_ne_hlt h hi, hi]

/-- Bits 7:2 of F are kept by every instruction, but for CLC on bit 2 and CLV on bit 3, which clear (10_state.md R112). -/
theorem exec_reserved_bit (h : exec i s = .next t) {k : Nat} (hk : 2 ≤ k) :
    t.f.getLsbD k = s.f.getLsbD k ∨
      (t.f.getLsbD k = false ∧ ((k = 2 ∧ i = .clc) ∨ (k = 3 ∧ i = .clv))) := by
  cases exec_shape h with
  | clear _ j _ hmem =>
    rw [setF_f, clearBit_bit]
    by_cases hkj : k = j
    · subst hkj
      right
      simp only [List.mem_cons, Prod.mk.injEq, List.not_mem_nil, or_false] at hmem
      rcases hmem with ⟨hi, hk2⟩ | ⟨_, hk1⟩ | ⟨_, hk0⟩ | ⟨hi, hk3⟩
      · exact ⟨by simp, .inl ⟨hk2, hi⟩⟩
      · omega
      · omega
      · exact ⟨by simp, .inr ⟨hk3, hi⟩⟩
    · left
      simp [hkj]
  | sez => left; rw [setF_f, setBit_bit _ _ _ (by omega)]; simp [show k ≠ 0 by omega]
  | alu => left; rw [aluResult_f, checkedFlags_bit, if_neg (by omega), if_neg (by omega)]
  | _ => left; simp

end

/-! ## Steps and cycles -/

/-- All that a step can do: nothing in HALTED, and else the fetched instruction. -/
theorem step_cases {s t : State} (h : step s = .next t) :
    (s.run = .halted ∧ t = s) ∨ (s.run = .running ∧ exec (fetchInstr s).1 (fetchInstr s).2 = .next t) := by
  cases hrun : s.run with
  | halted =>
    rw [step_halted hrun] at h
    cases h
    exact .inl ⟨rfl, rfl⟩
  | running => exact .inr ⟨rfl, by rw [← step_running hrun, h]⟩

/-- What every step keeps, every number of cycles keeps. -/
theorem cycles_induction {P : State → Prop} (hstep : ∀ s t, step s = .next t → P s → P t) {n : Nat} {s t : State}
    (h : cycles n s = .next t) (hs : P s) : P t := by
  induction n generalizing s with
  | zero => cases h; exact hs
  | succ n ih =>
    unfold cycles at h
    split at h
    next u hu => exact ih h (hstep s u hu hs)
    next hne => exact absurd h (hne t)

/-- R112's first half: what one cycle does to bits 7:2 of F. -/
theorem step_reserved_bit {s t : State} (h : step s = .next t) {k : Nat} (hk : 2 ≤ k) :
    t.f.getLsbD k = s.f.getLsbD k ∨
      (t.f.getLsbD k = false ∧ ((k = 2 ∧ (fetchInstr s).1 = .clc) ∨ (k = 3 ∧ (fetchInstr s).1 = .clv))) := by
  rcases step_cases h with ⟨_, rfl⟩ | ⟨_, he⟩
  · exact .inl rfl
  · simpa using exec_reserved_bit he hk

/-! ## Clean flags -/

theorem flagsClean_iff_bits (s : State) : s.flagsClean = true ↔ ∀ k, 2 ≤ k → s.f.getLsbD k = false := by
  rw [State.flagsClean, beq_iff_eq]
  constructor
  · intro h k hk
    obtain ⟨j, rfl⟩ := Nat.exists_eq_add_of_le hk
    rw [← BitVec.getLsbD_ushiftRight, h]
    exact BitVec.getLsbD_zero
  · intro h
    apply BitVec.eq_of_getLsbD_eq
    intro j _
    rw [BitVec.getLsbD_ushiftRight, h _ (by omega)]
    exact BitVec.getLsbD_zero.symm

theorem flags_toNat_le_of_flagsClean {s : State} (h : s.flagsClean = true) : s.f.toNat ≤ 3 := by
  have hlt : s.f.toNat < 2 ^ 2 := Nat.lt_pow_two_of_testBit _ fun k hk => (flagsClean_iff_bits s).1 h k hk
  omega

/-- No step sets a reserved flag: bits 7:2 clear before, clear after. -/
theorem step_flagsClean {s t : State} (h : step s = .next t) (hs : s.flagsClean = true) : t.flagsClean = true := by
  rw [flagsClean_iff_bits] at hs ⊢
  intro k hk
  rcases step_reserved_bit h hk with hkept | ⟨hclear, _⟩
  · rw [hkept, hs k hk]
  · exact hclear

theorem boot_flagsClean (ramImage romImage : List Host.Cell) : (State.boot ramImage romImage).flagsClean = true := by
  rw [State.flagsClean, boot_f]
  decide

/-! ## The Loader -/

/-- Above its last admitted address a canonical memory lists nothing. -/
theorem memGet_of_ge {lo size : Nat} {m : Memory} (hm : memWfFrom lo size m = true) {i : Nat} (h : size ≤ i) :
    memGet m i = unlisted := by
  induction m generalizing lo with
  | nil => rfl
  | cons c m ih =>
    obtain ⟨k, v⟩ := c
    obtain ⟨_, hk, _, htail⟩ := (memWfFrom_cons ..).1 hm
    rw [memGet_cons, if_neg (by omega), ih htail]

/-- Loading a canonical image overwrites the cells it lists and keeps the others; its addresses rise, so that no later
cell hides an earlier one. -/
theorem memGet_loadCells {lo size : Nat} {image : Memory} (himage : memWfFrom lo size image = true) (m : Memory) (i : Nat) :
    memGet (loadCells size m image) i = if memGet image i = unlisted then memGet m i else memGet image i := by
  induction image generalizing lo m with
  | nil => simp [loadCells]
  | cons c image ih =>
    obtain ⟨k, v⟩ := c
    obtain ⟨_, hk, hv, htail⟩ := (memWfFrom_cons ..).1 himage
    rw [loadCells, if_pos hk, ih htail, memGet_memSet, memGet_cons]
    by_cases hki : k = i
    · simp [hki, hv, memGet_of_lt htail (show i < k + 1 by omega)]
    · simp [hki]

/-- After loading into empty memory every address reads as the image says. -/
theorem memGet_loadCells_nil {size : Nat} {image : Memory} (himage : memWf size image = true) (i : Nat) :
    memGet (loadCells size [] image) i = memGet image i := by
  rw [memGet_loadCells himage, memGet_nil]
  split
  next h => exact h.symm
  next => rfl

theorem boot_ram_get {ramImage : Memory} (h : memWf 0x7F00 ramImage = true) (romImage : Memory) (i : Nat) :
    memGet (State.boot ramImage romImage).ram i = memGet ramImage i :=
  memGet_loadCells_nil h i

theorem boot_rom_get (ramImage : Memory) {romImage : Memory} (h : memWf Config.romSize romImage = true) (i : Nat) :
    memGet (State.boot ramImage romImage).rom i = memGet romImage i :=
  memGet_loadCells_nil h i

@[simp] theorem boot_reg (ramImage romImage : List Host.Cell) (r : Reg) : (State.boot ramImage romImage).reg r = 0 := by
  cases r <;> rfl

/-! ## The statements of 10_state.md -/

/-- Settles O54: one cycle by `step_reserved_bit`, then every number of cycles from reset by the invariant
`State.flagsClean`. -/
theorem reservedFlagsStayClear : Obligations.ReservedFlagsStayClear := by
  unfold Obligations.ReservedFlagsStayClear
  refine ⟨fun s t h k hk => step_reserved_bit h hk, fun ramImage romImage n t h => ?_⟩
  have hclean : t.flagsClean = true :=
    cycles_induction (P := fun s => s.flagsClean = true) (fun _ _ => step_flagsClean) h (boot_flagsClean ramImage romImage)
  exact flags_toNat_le_of_flagsClean hclean

/-- Settles O2: the registers are those of the reset state, and the memory reads as the image, which lists no cell of the
stack window. -/
theorem resetValuesWithImage : Obligations.ResetValuesWithImage := by
  unfold Obligations.ResetValuesWithImage
  intro ramImage romImage hram hrom
  refine ⟨boot_reg _ _, rfl, rfl, rfl, rfl, rfl, rfl, rfl, fun i _ => boot_ram_get hram romImage i, fun i hi _ => ?_,
    boot_rom_get ramImage hrom⟩
  rw [boot_ram_get hram, memGet_of_ge hram hi]
  rfl

/-- Settles O10, on the run state before the cycle: HALTED answers itself, and RUNNING answers what the fetched
instruction does. -/
theorem everyCycleAnswersNext : Obligations.EveryCycleAnswersNext := by
  unfold Obligations.EveryCycleAnswersNext
  intro s
  cases hrun : s.run with
  | halted => exact ⟨s, step_halted hrun, by simp [hrun]⟩
  | running =>
    obtain ⟨t, ht⟩ := exec_answers_next (fetchInstr s).1 (fetchInstr s).2
    exact ⟨t, by rw [step_running hrun, ht], by rw [exec_run_halted_iff ht, fetchInstr_run, hrun]⟩

/-- Settles O13: the fetch leaves the opcode in IR, and the instruction does not write it. -/
theorem cycleLeavesOpcodeInIr : Obligations.CycleLeavesOpcodeInIr := by
  unfold Obligations.CycleLeavesOpcodeInIr
  intro s t hrun h
  rw [step_running hrun] at h
  have hir : t.ir = (fetchInstr s).2.ir := exec_ir h
  exact ⟨hir.trans (fetchInstr_ir s), (opcodeOf_fetchInstr s).trans hir.symm⟩

/-- Settles O22: the bounds and frames of the stack primitives, with the wrap of SP at both ends of the window. -/
theorem stackStaysInRam : Obligations.StackStaysInRam := by
  unfold Obligations.StackStaysInRam
  intro s v
  obtain ⟨hlow, hhigh⟩ := stackAddr_bounds s.sp
  refine ⟨hlow, hhigh, push_trace s v, popState_trace s, popState_ram s, ?_, ?_, fun hsp => ⟨?_, ?_⟩⟩
  · rw [push_ram_get]
    exact if_pos rfl
  · rw [push_sp, BitVec.toNat_add]
    rfl
  · rw [popValue, hsp]
    rfl
  · rw [popState_sp, hsp]
    rfl

end Sys2Proof.Machine
end

section
/-! # The memory family: one read and one write, row by row of the address map

What `memRead` does in each row first, beside the `memWrite_to_…` laws; then the whole effect of a write; then the
statements of 20_memory.md. -/

namespace Sys2Proof.Machine

/-! ## The address map -/

/-- The two ROM rows of the map: the window below the ports, and the four addresses above the page registers. -/
theorem targetOf_eq_rom {addr : Addr} :
    targetOf addr = .rom ↔ (0x8000 ≤ addr.toNat ∧ addr.toNat ≤ 0xFFEF) ∨ 0xFFFC ≤ addr.toNat := by
  constructor
  · intro h
    rcases targetOf_cases addr with ⟨ht, _⟩ | ⟨_, hlow, hhigh⟩ | ⟨ht, _⟩ | ⟨ht, _⟩ | ⟨ht, _⟩ | ⟨_, htop⟩
    case inr.inl => exact .inl ⟨hlow, by omega⟩
    case inr.inr.inr.inr.inr => exact .inr htop
    all_goals rw [ht] at h; cases h
  · rintro (⟨hlow, hhigh⟩ | htop)
    · exact targetOf_rom_window hlow (by omega)
    · exact targetOf_rom_top htop

/-- The map with its exceptions first: what is neither RAM nor a device-register address is ROM (20_memory.md R202). -/
theorem targetOf_eq_ite (addr : Addr) :
    targetOf addr =
      if addr.toNat ≤ 0x7FFF then .ram
      else if 0xFFF0 ≤ addr.toNat ∧ addr.toNat ≤ 0xFFF9 then .device
      else if addr.toNat = 0xFFFA then .pageLow
      else if addr.toNat = 0xFFFB then .pageHigh
      else .rom := by
  rcases targetOf_cases addr with ⟨ht, h⟩ | ⟨ht, h⟩ | ⟨ht, h⟩ | ⟨_, rfl⟩ | ⟨_, rfl⟩ | ⟨ht, h⟩
  · rw [ht, if_pos (by omega)]
  · rw [ht, if_neg (by omega), if_neg (by omega), if_neg (by omega), if_neg (by omega)]
  · rw [ht, if_neg (by omega), if_pos (by omega)]
  · decide
  · decide
  · rw [ht, if_neg (by omega), if_neg (by omega), if_neg (by omega), if_neg (by omega)]

/-! ## Reads, row by row -/

section
variable (s : State) {addr : Addr}

theorem memRead_from_ram (h : addr.toNat < 0x8000) : memRead s addr = (memGet s.ram addr.toNat, s) := by
  simp [memRead, targetOf_ram h]

theorem memRead_from_pageLow : memRead s 0xFFFA = (s.mpL, s) := by simp [memRead]

theorem memRead_from_pageHigh : memRead s 0xFFFB = (s.mpH, s) := by simp [memRead]

theorem memRead_from_rom (h : targetOf addr = .rom) : memRead s addr = s.romRead addr := by simp [memRead, h]

theorem memRead_from_device (h : targetOf addr = .device) :
    ∃ v rest, memRead s addr = (v, { s with trace := s.trace ++ [.devRead addr v], deviceInput := rest }) := by
  obtain ⟨v, rest, hread, _⟩ := deviceRead_effect s addr
  exact ⟨v, rest, (memRead_device s h).trans hread⟩

/-- The byte of a bank that exists, chosen by the page registers at the moment of the access (20_memory.md R204, R205). -/
theorem memRead_from_present_bank (h : targetOf addr = .rom) (hH : s.mpH.toNat ≤ 254) (hL : s.mpL.toNat ≤ 254) :
    memRead s addr = (memGet s.rom (romIndex s.mpH s.mpL (addr.toNat - 0x8000)), s) := by
  rw [memRead_from_rom s h, romRead_present s (bankPresent_iff.2 ⟨by omega, by omega⟩)]
  rfl

theorem memRead_from_absent_bank (h : targetOf addr = .rom) (hbank : s.mpH = 0xFF ∨ s.mpL = 0xFF) :
    ∃ v n, memRead s addr = (v, { s with draws := n }) :=
  ⟨_, _, (memRead_from_rom s h).trans (romRead_absent s (bankPresent_false_iff.2 hbank))⟩

end

/-! ## The whole effect of a write -/

/-- The one event a write can add, by the address: none in RAM and the page registers, a transaction at a port, and else
the report of a dropped ROM write (20_memory.md R206, R207). -/
theorem memWrite_trace_eq_ite (s : State) (addr : Addr) (v : Byte) :
    (memWrite s addr v).trace = s.trace ++
      (if addr.toNat ≤ 0x7FFF ∨ addr.toNat = 0xFFFA ∨ addr.toNat = 0xFFFB then []
       else if 0xFFF0 ≤ addr.toNat ∧ addr.toNat ≤ 0xFFF9 then [.devWrite addr v]
       else [.readOnlyViolation addr v]) := by
  rcases targetOf_cases addr with ⟨_, h⟩ | ⟨ht, h⟩ | ⟨ht, h⟩ | ⟨_, rfl⟩ | ⟨_, rfl⟩ | ⟨ht, h⟩
  · rw [memWrite_to_ram s h, if_pos (by omega), List.append_nil, setRam_trace]
  · rw [memWrite_to_rom s ht, if_neg (by omega), if_neg (by omega), emit_trace]
  · rw [memWrite_to_device s ht, if_neg (by omega), if_pos (by omega), emit_trace]
  · rw [memWrite_to_pageLow, if_pos (by decide), List.append_nil, setMpL_trace]
  · rw [memWrite_to_pageHigh, if_pos (by decide), List.append_nil, setMpH_trace]
  · rw [memWrite_to_rom s ht, if_neg (by omega), if_neg (by omega), emit_trace]

theorem memWrite_storeDone (s : State) (addr : Addr) (v : Byte) : StoreDone addr v s (memWrite s addr v) where
  regs := memWrite_reg s addr v
  f := memWrite_f s addr v
  sp := memWrite_sp s addr v
  ir := memWrite_ir s addr v
  pc := memWrite_pc s addr v
  run := memWrite_run s addr v
  ram i := by
    rw [memWrite_ram_get]
    exact ite_congr (propext (by omega)) (fun _ => rfl) fun _ => rfl
  rom := memWrite_rom s addr v
  mpL := (memWrite_mpL s addr v).trans (ite_congr (propext BitVec.toNat_eq) (fun _ => rfl) fun _ => rfl)
  mpH := (memWrite_mpH s addr v).trans (ite_congr (propext BitVec.toNat_eq) (fun _ => rfl) fun _ => rfl)
  trace := memWrite_trace_eq_ite s addr v
  deviceInput := memWrite_deviceInput s addr v
  draws := memWrite_draws s addr v

/-! ## The statements of 20_memory.md -/

/-- Settles O14: the map row by row; the ROM cell is `State.romKey` by definition. -/
theorem addressMap : Obligations.AddressMap := by
  unfold Obligations.AddressMap
  exact fun s addr => ⟨targetOf_eq_ite addr, rfl⟩

/-- Settles O15, one law of `memRead` for each row of the map. -/
theorem memReadByTarget : Obligations.MemReadByTarget := by
  unfold Obligations.MemReadByTarget
  intro s addr
  refine ⟨fun h => memRead_from_ram s (by omega), fun h => ?_, fun h => ?_, fun hlow hhigh => ?_, fun h => ⟨?_, ?_⟩⟩
  · obtain rfl : addr = 0xFFFA := BitVec.eq_of_toNat_eq h
    exact memRead_from_pageLow s
  · obtain rfl : addr = 0xFFFB := BitVec.eq_of_toNat_eq h
    exact memRead_from_pageHigh s
  · exact memRead_from_device s (targetOf_device hlow (by omega))
  · exact memRead_from_present_bank s (targetOf_eq_rom.2 h)
  · exact memRead_from_absent_bank s (targetOf_eq_rom.2 h)

/-- Settles O16, field by field in `memWrite_storeDone`. -/
theorem memWriteEffect : Obligations.MemWriteEffect := by
  unfold Obligations.MemWriteEffect
  exact memWrite_storeDone

/-- Settles O17: a RAM write is one `memSet`, and a RAM read is `memGet`. -/
theorem ramReadsLastWrite : Obligations.RamReadsLastWrite := by
  unfold Obligations.RamReadsLastWrite
  intro s addr v h
  have hram : addr.toNat < 0x8000 := by omega
  constructor
  · rw [memRead_from_ram _ hram, memWrite_to_ram s hram, setRam_ram, memGet_memSet_self]
  · exact ⟨_, memWrite_to_ram s hram v, fun i hi => memGet_memSet_ne s.ram hi.symm v⟩

/-- Settles O18: the write sets the page register, and the ROM read that follows takes its bank from the register. -/
theorem pageWriteGovernsNextRead : Obligations.PageWriteGovernsNextRead := by
  unfold Obligations.PageWriteGovernsNextRead
  intro s v
  rw [memWrite_to_pageLow, memWrite_to_pageHigh]
  refine ⟨rfl, rfl, memRead_from_pageLow (s.setMpL v), memRead_from_pageHigh (s.setMpH v),
    fun addr h => ⟨fun hH hv => ?_, fun hL hv => ?_⟩⟩
  · rw [memRead_from_present_bank (s.setMpL v) h hH hv, setMpL_rom, setMpL_mpH, setMpL_mpL]
  · rw [memRead_from_present_bank (s.setMpH v) h hv hL, setMpH_rom, setMpH_mpH, setMpH_mpL]

end Sys2Proof.Machine
end

section
/-! # The encoding family: the length of an instruction, and a cycle as fetch, decode, execute

The opcode's format and `decode` first; then the fetch as `FetchByte` after `FetchByte`; then where an instruction sends
PC; then the statements of 30_encoding.md. -/

namespace Sys2Proof

/-! ## The format of an opcode -/

theorem formatOf_length_pos (op : Byte) : 0 < (formatOf op).length := by
  cases formatOf op <;> decide

/-- R316's three lists of opcodes, checked byte by byte. -/
theorem formatOf_length_eq_ite (op : Byte) :
    (formatOf op).length =
      if [0x12, 0x13, 0x16, 0x17, 0x1A, 0x1B, 0x1E, 0x1F].contains op.toNat then 2
      else if [0x70, 0x71, 0x73, 0x74, 0x75, 0x76, 0xC0, 0xC1, 0xC2, 0xC3].contains op.toNat then 3 else 1 := by
  revert op
  decide +kernel

/-- The opcode map gives an instruction of the format that its opcode selects: the row of each mapped opcode, and the
bytes outside the map, which are outside the rows of formats M and W too (30_encoding.md R300, R314, R316). -/
theorem format_instrOf (op b1 b2 : Byte) : (instrOf op b1 b2).format = formatOf op := by
  unfold instrOf
  split
  case h_107 =>
    unfold formatOf
    split
    case h_19 => rfl
    all_goals contradiction
  all_goals rfl

theorem length_instrOf (op b1 b2 : Byte) : (instrOf op b1 b2).length = (formatOf op).length :=
  congrArg Format.length (format_instrOf op b1 b2)

theorem formatOf_of_isUnmapped {op : Byte} (h : isUnmapped op = true) : formatOf op = .I := by
  revert op
  decide +kernel

/-- No row of the opcode map holds a byte of R314's list. -/
theorem instrOf_of_isUnmapped {op : Byte} (h : isUnmapped op = true) (b1 b2 : Byte) : instrOf op b1 b2 = .unmapped op := by
  unfold instrOf
  split
  case h_107 => rfl
  all_goals cases h

theorem count_isUnmapped : ((List.range 256).filter fun n => isUnmapped (BitVec.ofNat 8 n)).length = 150 := by
  decide +kernel

/-! ## The decoder, format by format -/

section
variable {op : Byte}

theorem decode_I (hf : formatOf op = .I) (rest : List Byte) : decode (op :: rest) = .ok (instrOf op 0 0, rest) := by
  simp [decode, hf]

theorem decode_M (hf : formatOf op = .M) (b1 : Byte) (rest : List Byte) :
    decode (op :: b1 :: rest) = .ok (instrOf op b1 0, rest) := by
  simp [decode, hf]

theorem decode_W (hf : formatOf op = .W) (b1 b2 : Byte) (rest : List Byte) :
    decode (op :: b1 :: b2 :: rest) = .ok (instrOf op b1 b2, rest) := by
  simp [decode, hf]

/-- All that the decoder can answer for a string with this opcode: the opcode's row of the map, and the bytes that its
format leaves. -/
theorem decode_cons_cases {tail rest : List Byte} {i : Instr} (h : decode (op :: tail) = .ok (i, rest)) :
    (∃ b1 b2, i = instrOf op b1 b2) ∧ rest = (op :: tail).drop (formatOf op).length := by
  cases hf : formatOf op with
  | I =>
    rw [decode_I hf] at h
    cases h
    exact ⟨⟨_, _, rfl⟩, rfl⟩
  | M =>
    cases tail with
    | nil => simp [decode, hf] at h
    | cons b1 tail =>
      rw [decode_M hf] at h
      cases h
      exact ⟨⟨_, _, rfl⟩, rfl⟩
  | W =>
    match tail with
    | [] => simp [decode, hf] at h
    | [_] => simp [decode, hf] at h
    | b1 :: b2 :: tail =>
      rw [decode_W hf] at h
      cases h
      exact ⟨⟨_, _, rfl⟩, rfl⟩

end

end Sys2Proof

namespace Sys2Proof.Machine

/-! ## Reads and fetches do not look at IR -/

section
variable (s : State) (v : Byte)

theorem deviceRead_setIr (port : Addr) :
    (s.setIr v).deviceRead port = ((s.deviceRead port).1, (s.deviceRead port).2.setIr v) := by
  unfold State.deviceRead
  rw [setIr_deviceInput]
  split <;> rfl

theorem romRead_setIr (addr : Addr) : (s.setIr v).romRead addr = ((s.romRead addr).1, (s.romRead addr).2.setIr v) := by
  unfold State.romRead
  rw [setIr_mpH, setIr_mpL]
  split <;> rfl

theorem memRead_setIr (addr : Addr) : memRead (s.setIr v) addr = ((memRead s addr).1, (memRead s addr).2.setIr v) := by
  unfold memRead
  cases targetOf addr with
  | device => exact deviceRead_setIr s v addr
  | rom => exact romRead_setIr s v addr
  | _ => rfl

theorem fetchByte_setIr : fetchByte (s.setIr v) = ((fetchByte s).1, (fetchByte s).2.setIr v) := by
  simp only [fetchByte, setIr_pc, memRead_setIr]
  rfl

end

/-! ## The fetch of an instruction as `FetchByte` after `FetchByte` -/

section
variable (s : State)

/-- `FetchByte` as R303 words it: a read at PC, and PC one further. -/
theorem fetchByte_eq : fetchByte s = ((memRead s s.pc).1, (memRead s s.pc).2.setPc (s.pc + 1)) := by
  simp [fetchByte]

theorem fetchBytes_pc (n : Nat) : (fetchBytes n s).2.pc = s.pc + BitVec.ofNat 16 n := by
  induction n generalizing s with
  | zero => simp [fetchBytes]
  | succ n ih =>
    rw [fetchBytes, ih, fetchByte_pc, BitVec.add_assoc, Nat.add_comm, BitVec.ofNat_add]
    rfl

theorem fetchBytes_headD {n : Nat} (hn : 0 < n) : (fetchBytes n s).1.headD 0 = (fetchByte s).1 := by
  cases n with
  | zero => exact absurd hn (Nat.lt_irrefl 0)
  | succ n => rfl

/-- The bytes of the opcode's format, one by one, decode to the instruction fetched; and what the fetch leaves is the state
after them, with the opcode in IR (30_encoding.md R302, R304). -/
theorem fetchInstr_eq_fetchBytes :
    decode (fetchBytes (formatOf (fetchByte s).1).length s).1 = .ok ((fetchInstr s).1, []) ∧
    (fetchInstr s).2 = (fetchBytes (formatOf (fetchByte s).1).length s).2.setIr (fetchByte s).1 := by
  cases hf : formatOf (fetchByte s).1 with
  | I =>
    have hfetch : fetchInstr s = (instrOf (fetchByte s).1 0 0, (fetchByte s).2.setIr (fetchByte s).1) := by
      simp [fetchInstr, fetchOpcode, hf]
    rw [hfetch]
    exact ⟨decode_I hf _, rfl⟩
  | M =>
    have hfetch : fetchInstr s =
        (instrOf (fetchByte s).1 (fetchByte (fetchByte s).2).1 0,
          (fetchByte (fetchByte s).2).2.setIr (fetchByte s).1) := by
      simp [fetchInstr, fetchOpcode, hf, fetchByte_setIr]
    rw [hfetch]
    exact ⟨decode_M hf _ _, rfl⟩
  | W =>
    have hfetch : fetchInstr s =
        (instrOf (fetchByte s).1 (fetchByte (fetchByte s).2).1 (fetchByte (fetchByte (fetchByte s).2).2).1,
          (fetchByte (fetchByte (fetchByte s).2).2).2.setIr (fetchByte s).1) := by
      simp [fetchInstr, fetchOpcode, hf, fetchByte_setIr]
    rw [hfetch]
    exact ⟨decode_W hf _ _ _, rfl⟩

theorem length_fetchInstr : (fetchInstr s).1.length = (formatOf (fetchByte s).1).length := by
  simp only [fetchInstr]
  split <;> rw [length_instrOf] <;> rfl

/-- The fetch leaves PC past the instruction. -/
theorem fetchInstr_pc : (fetchInstr s).2.pc = s.pc + BitVec.ofNat 16 (fetchInstr s).1.length := by
  rw [(fetchInstr_eq_fetchBytes s).2, setIr_pc, fetchBytes_pc, length_fetchInstr]

end

/-- A format I instruction runs from its one byte. -/
theorem runsFrom_I {op : Byte} (hf : formatOf op = .I) : RunsFrom [op] (instrOf op 0 0) := by
  intro s hrun hholds
  have hview : s.view s.pc = some op := ((holds_cons ..).1 hholds).1
  rw [step_running hrun, fetchInstr_I hview hf]
  rfl

/-! ## Where an instruction sends PC -/

section
variable (r d q : Reg) (v : Byte) (s : State)

@[simp] theorem aluResult_pc : (aluResult r v s).pc = s.pc := by simp [aluResult, flagCheck]
@[simp] theorem popInto_pc : (popInto r s).pc = s.pc := by simp [popInto]
@[simp] theorem peekInto_pc : (peekInto r s).pc = s.pc := by simp [peekInto]
@[simp] theorem moveReg_pc : (moveReg d q s).pc = s.pc := by simp [moveReg]

@[simp] theorem transferTo_sez : s.transferTo (.sez r) = none := by cases r <;> rfl
@[simp] theorem transferTo_pop : s.transferTo (.pop r) = none := by cases r <;> rfl
@[simp] theorem transferTo_peek : s.transferTo (.peek r) = none := by cases r <;> rfl
@[simp] theorem transferTo_push : s.transferTo (.push r) = none := by cases r <;> rfl
@[simp] theorem transferTo_mov : s.transferTo (.mov d q) = none := by cases d <;> cases q <;> rfl
@[simp] theorem transferTo_st (addr : Addr) : s.transferTo (.st r addr) = none := by cases r <;> rfl

end

/-- An instruction that transfers control leaves PC at its target, and every other leaves PC where the fetch put it
(45_control_transfer.md R910 to R916). -/
theorem exec_pc {i : Instr} {s t : State} (h : exec i s = .next t) : t.pc = (s.transferTo i).getD s.pc := by
  cases exec_shape h with
  | same _ _ _ _ ht => rw [ht, Option.getD_none]
  | halt => rfl
  | clear _ k _ hmem =>
    simp only [List.mem_cons, Prod.mk.injEq, List.not_mem_nil, or_false] at hmem
    rcases hmem with ⟨rfl, _⟩ | ⟨rfl, _⟩ | ⟨rfl, _⟩ | ⟨rfl, _⟩ <;> rfl
  | alu _ r v _ _ _ ht => rw [ht, Option.getD_none, aluResult_pc]
  | sti _ v _ hmem =>
    simp only [List.mem_cons, Prod.mk.injEq, List.not_mem_nil, or_false] at hmem
    rcases hmem with ⟨rfl, _⟩ | ⟨rfl, _⟩ <;> exact memWrite_pc ..
  | jump _ addr _ _ ht => rw [ht, Option.getD_some, setPc_pc]
  | call _ addr _ _ ht => rw [ht, Option.getD_some, call_pc]
  | _ => simp

/-! ## HALTED -/

theorem cycles_halted {s : State} (h : s.run = .halted) (n : Nat) : cycles n s = .next s := by
  induction n with
  | zero => rfl
  | succ n ih => simp only [cycles, step_halted h, ih]

/-! ## The statements of 30_encoding.md -/

/-- Settles O9: `fetchByte_eq` for the one byte; and the fetch of an instruction is the fetches of its bytes, as many as
its opcode's format says. -/
theorem cycleFetchesDecodesExecutes : Obligations.CycleFetchesDecodesExecutes := by
  unfold Obligations.CycleFetchesDecodesExecutes
  intro s
  refine ⟨⟨fetchByte_eq s, ?_⟩, fun hrun => ⟨(fetchInstr s).1, ?_⟩⟩
  · rw [fetchByte_pc, BitVec.toNat_add]
    rfl
  · obtain ⟨hdecode, hstate⟩ := fetchInstr_eq_fetchBytes s
    rw [length_fetchInstr, fetchBytes_headD s (formatOf_length_pos _), ← hstate]
    exact ⟨hdecode, step_running hrun⟩

/-- Settles O12: the fetch leaves PC past the instruction, and `exec_pc` says where the instruction sends it. -/
theorem nextPcOfCycle : Obligations.NextPcOfCycle := by
  unfold Obligations.NextPcOfCycle
  intro s t hrun h
  rw [step_running hrun] at h
  rw [exec_pc h, fetchInstr_pc]

/-- Settles O7: the opcode's row of the map has the opcode's format, whatever the operand bytes. -/
theorem opcodeGivesLength : Obligations.OpcodeGivesLength := by
  unfold Obligations.OpcodeGivesLength
  refine fun op => ⟨formatOf_length_eq_ite op, fun tail rest i h => ?_⟩
  obtain ⟨⟨b1, b2, rfl⟩, hrest⟩ := decode_cons_cases h
  exact ⟨length_instrOf op b1 b2, hrest⟩

/-- Settles O11, by induction on the number of cycles. -/
theorem haltedCycleDoesNothing : Obligations.HaltedCycleDoesNothing := by
  unfold Obligations.HaltedCycleDoesNothing
  exact fun s n h => ⟨step_halted h, cycles_halted h n⟩

/-- Settles O27: an unmapped opcode has format I and no row of the map, and the instruction it names does nothing. -/
theorem unmappedOpcodesAreNop : Obligations.UnmappedOpcodesAreNop := by
  unfold Obligations.UnmappedOpcodesAreNop
  refine ⟨count_isUnmapped, fun op h => ?_⟩
  have hf : formatOf op = .I := formatOf_of_isUnmapped h
  have hi : instrOf op 0 0 = .unmapped op := instrOf_of_isUnmapped h 0 0
  refine ⟨fun rest => ?_, ?_, fun s => rfl⟩
  · rw [decode_I hf, hi]
  · rw [← hi]
    exact runsFrom_I hf

end Sys2Proof.Machine
end

section
/-! # The control family: the no-operations, HLT and the flag clears

What each of these instructions does, said once by an equation; then the statements of 40_control.md. -/

namespace Sys2Proof.Machine

/-! ## The instructions -/

section
variable (s : State)

@[simp] theorem exec_nop : exec .nop s = .next s := rfl
@[simp] theorem exec_rst : exec .rst s = .next s := rfl
@[simp] theorem exec_brk : exec .brk s = .next s := rfl
@[simp] theorem exec_ctn : exec .ctn s = .next s := rfl
@[simp] theorem exec_hlt : exec .hlt s = .next (s.setRun .halted) := rfl

/-- Each flag clear writes F alone, by one `clearBit` (40_control.md R405 to R408). -/
theorem exec_flagClear {i : Instr} {k : Nat}
    (h : (i, k) ∈ [(Instr.clc, 2), (Instr.cln, 1), (Instr.clz, 0), (Instr.clv, 3)]) :
    exec i s = .next (s.setF (clearBit s.f k)) := by
  simp only [List.mem_cons, Prod.mk.injEq, List.not_mem_nil, or_false] at h
  rcases h with ⟨rfl, rfl⟩ | ⟨rfl, rfl⟩ | ⟨rfl, rfl⟩ | ⟨rfl, rfl⟩ <;> rfl

end

theorem clearBit_bit_eq_ite (f : Byte) (i k : Nat) :
    (clearBit f i).getLsbD k = if k = i then false else f.getLsbD k := by
  rw [clearBit_bit]
  by_cases hk : k = i <;> simp [hk]

/-! ## The statements of 40_control.md -/

/-- Settles O26: the four opcodes have format I, and none of their instructions changes the state after the fetch. -/
theorem nopRstBrkCtnDoNothing : Obligations.NopRstBrkCtnDoNothing := by
  unfold Obligations.NopRstBrkCtnDoNothing
  exact ⟨runsFrom_I (op := 0x00) rfl, runsFrom_I (op := 0x01) rfl, runsFrom_I (op := 0x03) rfl,
    runsFrom_I (op := 0x04) rfl, fun s => ⟨exec_nop s, exec_rst s, exec_brk s, exec_ctn s⟩⟩

/-- Settles O28: HLT is one `setRun`. -/
theorem hltHalts : Obligations.HltHalts := by
  unfold Obligations.HltHalts
  exact ⟨runsFrom_I (op := 0x02) rfl, exec_hlt⟩

/-- Settles O29: each of the four is one `clearBit` on F, which leaves every other bit. -/
theorem flagClearsClearOneBit : Obligations.FlagClearsClearOneBit := by
  unfold Obligations.FlagClearsClearOneBit
  refine ⟨runsFrom_I (op := 0x05) rfl, runsFrom_I (op := 0x06) rfl, runsFrom_I (op := 0x07) rfl,
    runsFrom_I (op := 0x08) rfl, fun s p hp => ?_⟩
  exact ⟨clearBit s.f p.2, exec_flagClear s hp, clearBit_bit_eq_ite s.f p.2⟩

end Sys2Proof.Machine
end

section
/-! # The single-register ALU family: rotates, immediate arithmetic, INC and DEC, and who writes F

The byte arithmetic as arithmetic modulo 2^8; then a format M instruction run from its bytes; then each instruction of the
family, said once by an equation; then the instructions that leave F alone; then the statements of 41_alu_single.md. -/

namespace Sys2Proof.Machine

/-! ## The byte arithmetic -/

theorem rol8_eq_rotateLeft (v : Byte) : rol8 v = v.rotateLeft 1 := rfl

theorem ror8_eq_rotateRight (v : Byte) : ror8 v = v.rotateRight 1 := rfl

theorem add8_eq_ofNat (a b : Byte) : add8 a b = BitVec.ofNat 8 ((a.toNat + b.toNat) % 256) :=
  BitVec.eq_of_toNat_eq (by simp [add8])

/-- The borrow is 2^8, so that the difference of naturals is the one meant. -/
theorem sub8_eq_ofNat (a b : Byte) : sub8 a b = BitVec.ofNat 8 ((a.toNat + 256 - b.toNat) % 256) := by
  apply BitVec.eq_of_toNat_eq
  have hb : b.toNat < 256 := b.isLt
  rw [sub8, BitVec.toNat_sub, BitVec.toNat_ofNat]
  omega

/-! ## From the bytes -/

/-- A format M instruction runs from its two bytes, the second its immediate (30_encoding.md R310). -/
theorem runsFrom_M {op : Byte} (hf : formatOf op = .M) (imm : Byte) : RunsFrom [op, imm] (instrOf op imm 0) := by
  intro s hrun hholds
  obtain ⟨hop, hrest⟩ := (holds_cons ..).1 hholds
  have himm : s.view (s.pc + 1) = some imm := ((holds_cons ..).1 hrest).1
  rw [step_running hrun, fetchInstr_M hop himm hf]
  rfl

section
variable (r : Reg) (imm : Byte)

theorem runsFrom_rol : RunsFrom [BitVec.ofNat 8 (0x10 + 4 * r.index)] (.rol r) := by
  cases r <;> exact runsFrom_I rfl

theorem runsFrom_ror : RunsFrom [BitVec.ofNat 8 (0x11 + 4 * r.index)] (.ror r) := by
  cases r <;> exact runsFrom_I rfl

theorem runsFrom_adi : RunsFrom [BitVec.ofNat 8 (0x12 + 4 * r.index), imm] (.adi r imm) := by
  cases r <;> exact runsFrom_M rfl imm

theorem runsFrom_sbi : RunsFrom [BitVec.ofNat 8 (0x13 + 4 * r.index), imm] (.sbi r imm) := by
  cases r <;> exact runsFrom_M rfl imm

theorem runsFrom_inc : RunsFrom [BitVec.ofNat 8 (0x20 + 4 * r.index)] (.inc r) := by
  cases r <;> exact runsFrom_I rfl

theorem runsFrom_dec : RunsFrom [BitVec.ofNat 8 (0x21 + 4 * r.index)] (.dec r) := by
  cases r <;> exact runsFrom_I rfl

end

/-! ## The instructions -/

section
variable (r : Reg) (v : Byte) (s : State)

theorem exec_rol : exec (.rol r) s = .next (rotateLeft r s) := by cases r <;> rfl
theorem exec_ror : exec (.ror r) s = .next (rotateRight r s) := by cases r <;> rfl
theorem exec_adi : exec (.adi r v) s = .next (addByte r v s) := by cases r <;> rfl
theorem exec_sbi : exec (.sbi r v) s = .next (subByte r v s) := by cases r <;> rfl
theorem exec_inc : exec (.inc r) s = .next (addByte r 1 s) := by cases r <;> rfl
theorem exec_dec : exec (.dec r) s = .next (subByte r 1 s) := by cases r <;> rfl

theorem rotateLeft_done : AluDone r ((s.reg r).rotateLeft 1) s (rotateLeft r s) := by
  rw [← rol8_eq_rotateLeft]
  exact aluResult_done ..

theorem rotateRight_done : AluDone r ((s.reg r).rotateRight 1) s (rotateRight r s) := by
  rw [← ror8_eq_rotateRight]
  exact aluResult_done ..

theorem addByte_done :
    AluDone r (BitVec.ofNat 8 (((s.reg r).toNat + v.toNat) % 256)) s (addByte r v s) := by
  rw [← add8_eq_ofNat]
  exact aluResult_done ..

theorem subByte_done :
    AluDone r (BitVec.ofNat 8 (((s.reg r).toNat + 256 - v.toNat) % 256)) s (subByte r v s) := by
  rw [← sub8_eq_ofNat]
  exact aluResult_done ..

end

/-! ## The instructions that leave F alone -/

/-- The instruction is none of those that may write F: no flag-check opcode (41_alu_single.md R505), no flag clear
(40_control.md R405 to R408), no SEZ (49_set_flag.md R1300). -/
structure LeavesFlags (i : Instr) : Prop where
  noCheck : isFlagCheckOp (opcodeOf i).toNat = false
  noClear : i ≠ .clc ∧ i ≠ .cln ∧ i ≠ .clz ∧ i ≠ .clv
  noSet : [0xD0, 0xD5, 0xDA, 0xDF].contains (opcodeOf i).toNat = false

theorem leavesFlags_hlt : LeavesFlags .hlt := ⟨rfl, ⟨nofun, nofun, nofun, nofun⟩, rfl⟩

theorem leavesFlags_ret : LeavesFlags .ret := ⟨rfl, ⟨nofun, nofun, nofun, nofun⟩, rfl⟩

theorem leavesFlags_pop (r : Reg) : LeavesFlags (.pop r) := by
  cases r <;> exact ⟨rfl, ⟨nofun, nofun, nofun, nofun⟩, rfl⟩

theorem leavesFlags_peek (r : Reg) : LeavesFlags (.peek r) := by
  cases r <;> exact ⟨rfl, ⟨nofun, nofun, nofun, nofun⟩, rfl⟩

theorem leavesFlags_push (r : Reg) : LeavesFlags (.push r) := by
  cases r <;> exact ⟨rfl, ⟨nofun, nofun, nofun, nofun⟩, rfl⟩

/-- The four codes with equal fields, which are unmapped, too. -/
theorem leavesFlags_mov (d q : Reg) : LeavesFlags (.mov d q) := by
  cases d <;> cases q <;> exact ⟨rfl, ⟨nofun, nofun, nofun, nofun⟩, rfl⟩

theorem leavesFlags_sti {i : Instr} (h : i = .stiA ∨ i = .stiB) : LeavesFlags i := by
  rcases h with rfl | rfl <;> exact ⟨rfl, ⟨nofun, nofun, nofun, nofun⟩, rfl⟩

theorem leavesFlags_st (r : Reg) (addr : Addr) : LeavesFlags (.st r addr) := by
  cases r <;> exact ⟨rfl, ⟨nofun, nofun, nofun, nofun⟩, rfl⟩

theorem leavesFlags_jump {i : Instr} {addr : Addr} (h : i ∈ [Instr.jmp addr, .bne addr, .beq addr]) :
    LeavesFlags i := by
  simp only [List.mem_cons, List.not_mem_nil, or_false] at h
  rcases h with rfl | rfl | rfl <;> exact ⟨rfl, ⟨nofun, nofun, nofun, nofun⟩, rfl⟩

theorem leavesFlags_call {i : Instr} {addr : Addr} (h : i ∈ [Instr.jsr addr, .jse addr, .jsn addr]) :
    LeavesFlags i := by
  simp only [List.mem_cons, List.not_mem_nil, or_false] at h
  rcases h with rfl | rfl | rfl <;> exact ⟨rfl, ⟨nofun, nofun, nofun, nofun⟩, rfl⟩

/-- All that an instruction can do to F: the flag check on the register of `op[3:2]`, one bit cleared, bit 0 set, or
nothing (10_state.md R108). -/
theorem exec_flags_cases {i : Instr} {s t : State} (hwf : i.wf = true) (h : exec i s = .next t) :
    (isFlagCheckOp (opcodeOf i).toNat = true ∧ FlagsChecked s t (t.reg (regAt ((opcodeOf i).toNat / 4 % 4)))) ∨
    (∃ k, (i, k) ∈ [(Instr.clc, 2), (Instr.cln, 1), (Instr.clz, 0), (Instr.clv, 3)] ∧ t.f = clearBit s.f k) ∨
    (∃ r, i = .sez r ∧ t.f = setBit s.f 0) ∨
    (LeavesFlags i ∧ t.f = s.f) := by
  cases exec_shape h with
  | alu _ r v _ _ _ _ hcheck hreg =>
    have hdone : AluDone r v s (aluResult r v s) := aluResult_done r v s
    refine .inl ⟨hcheck, ?_⟩
    rw [hreg, hdone.dest]
    exact hdone.flags
  | clear _ k _ hmem => exact .inr (.inl ⟨k, hmem, setF_f ..⟩)
  | sez r => exact .inr (.inr (.inl ⟨r, rfl, setF_f ..⟩))
  | same _ _ _ _ _ hcheck hset hclear => exact .inr (.inr (.inr ⟨⟨hcheck hwf, hclear, hset hwf⟩, rfl⟩))
  | halt => exact .inr (.inr (.inr ⟨leavesFlags_hlt, setRun_f ..⟩))
  | pop r => exact .inr (.inr (.inr ⟨leavesFlags_pop r, popInto_f ..⟩))
  | peek r => exact .inr (.inr (.inr ⟨leavesFlags_peek r, peekInto_f ..⟩))
  | push r => exact .inr (.inr (.inr ⟨leavesFlags_push r, push_f ..⟩))
  | mov d q => exact .inr (.inr (.inr ⟨leavesFlags_mov d q, moveReg_f ..⟩))
  | sti _ v _ hmem =>
    have hi : i = .stiA ∨ i = .stiB := by
      simp only [List.mem_cons, Prod.mk.injEq, List.not_mem_nil, or_false] at hmem
      exact hmem.imp And.left And.left
    exact .inr (.inr (.inr ⟨leavesFlags_sti hi, memWrite_f ..⟩))
  | st r addr => exact .inr (.inr (.inr ⟨leavesFlags_st r addr, memWrite_f ..⟩))
  | jump _ addr _ hi => exact .inr (.inr (.inr ⟨leavesFlags_jump hi, setPc_f ..⟩))
  | call _ addr _ hi => exact .inr (.inr (.inr ⟨leavesFlags_call hi, call_f ..⟩))
  | ret => exact .inr (.inr (.inr ⟨leavesFlags_ret, ret_f ..⟩))

/-! ## The statements of 41_alu_single.md -/

/-- Settles O47, on what the instruction does to F: in each of the four cases the guards of the statement say which
instruction it is. -/
theorem writersOfFlags : Obligations.WritersOfFlags := by
  unfold Obligations.WritersOfFlags
  intro i s t hwf h
  rcases exec_flags_cases hwf h with ⟨hcheck, hflags⟩ | ⟨k, hmem, hf⟩ | ⟨r, rfl, hf⟩ | ⟨hleaves, hf⟩
  · rw [if_pos hcheck]
    exact hflags
  · have hbit : ∀ j, t.f.getLsbD j = (s.f.getLsbD j && j != k) := fun j => by rw [hf, clearBit_bit]
    simp only [List.mem_cons, Prod.mk.injEq, List.not_mem_nil, or_false] at hmem
    rcases hmem with ⟨rfl, rfl⟩ | ⟨rfl, rfl⟩ | ⟨rfl, rfl⟩ | ⟨rfl, rfl⟩ <;> exact hbit
  · have hbit : ∀ j, t.f.getLsbD j = (s.f.getLsbD j || j == 0) := fun j => by
      rw [hf, setBit_bit _ _ _ (by decide)]
    cases r <;> exact hbit
  · obtain ⟨hcheck, ⟨hclc, hcln, hclz, hclv⟩, hset⟩ := hleaves
    rw [if_neg (Bool.eq_false_iff.1 hcheck), if_neg hclc, if_neg hcln, if_neg hclz, if_neg hclv,
      if_neg (Bool.eq_false_iff.1 hset)]
    exact hf

/-- Settles O32: ROL and ROR are the shift formulas of R502, which are `BitVec`'s rotations by one. -/
theorem rotatesByOne : Obligations.RotatesByOne := by
  unfold Obligations.RotatesByOne
  exact fun r => ⟨runsFrom_rol r, runsFrom_ror r, fun s =>
    ⟨⟨_, exec_rol r s, rotateLeft_done r s⟩, ⟨_, exec_ror r s, rotateRight_done r s⟩⟩⟩

/-- Settles O33: the second byte is the immediate, and the byte sum and difference are those modulo 2^8. -/
theorem adiSbiUseImmediate : Obligations.AdiSbiUseImmediate := by
  unfold Obligations.AdiSbiUseImmediate
  exact fun r imm => ⟨runsFrom_adi r imm, runsFrom_sbi r imm, fun s =>
    ⟨⟨_, exec_adi r imm s, addByte_done r imm s⟩, ⟨_, exec_sbi r imm s, subByte_done r imm s⟩⟩⟩

/-- Settles O34: INC adds the byte 1 and DEC subtracts it. -/
theorem incDecByOne : Obligations.IncDecByOne := by
  unfold Obligations.IncDecByOne
  exact fun r => ⟨runsFrom_inc r, runsFrom_dec r, fun s =>
    ⟨⟨_, exec_inc r s, addByte_done r 1 s⟩, ⟨_, exec_dec r s, subByte_done r 1 s⟩⟩⟩

end Sys2Proof.Machine
end

section
/-! # The stack read family: POP and PEEK

A register write, with or without a move of SP, as a whole-state effect; then the RAM address each of the two reads, as a
number; then each instruction, said once by an equation; then the statement of 42_stack_read.md. -/

namespace Sys2Proof.Machine

/-! ## Writing one register -/

section
variable (r : Reg) (v : Byte) (s : State)

/-- SP and one register written, and the whole rest of the state kept. -/
theorem setSp_setReg_done (sp : Byte) : RegDone r v sp s ((s.setSp sp).setReg r v) where
  dest := setReg_reg_self ..
  others q hq := by rw [setReg_reg_ne _ hq, setSp_reg]
  f := by rw [setReg_f, setSp_f]
  pc := by rw [setReg_pc, setSp_pc]
  sp := by rw [setReg_sp, setSp_sp]
  ram i := by rw [setReg_ram, setSp_ram]
  rest := by constructor <;> simp

theorem setReg_done : RegDone r v s.sp s (s.setReg r v) := setSp_setReg_done r v s s.sp

end

/-! ## The byte read -/

section
variable (s : State)

/-- POP reads one slot below SP, in the ring of 256 slots (10_state.md R121, R123): at SP 0x00 that is 0x7FFF. -/
theorem popValue_eq_memGet : popValue s = memGet s.ram (0x7F00 + (s.sp.toNat + 255) % 256) := by
  have hslot : (s.sp - 1).toNat = (s.sp.toNat + 255) % 256 := by
    rw [BitVec.toNat_sub, Nat.add_comm]
    rfl
  rw [popValue, stackAddr, hslot]
  rfl

/-- PEEK reads the slot at SP, the next free one (10_state.md R122). -/
theorem peekValue_eq_memGet : peekValue s = memGet s.ram (0x7F00 + s.sp.toNat) := rfl

end

/-! ## The instructions -/

section
variable (r : Reg) (s : State)

theorem runsFrom_pop : RunsFrom [BitVec.ofNat 8 (0x30 + 4 * r.index)] (.pop r) := by
  cases r <;> exact runsFrom_I rfl

theorem runsFrom_peek : RunsFrom [BitVec.ofNat 8 (0x31 + 4 * r.index)] (.peek r) := by
  cases r <;> exact runsFrom_I rfl

theorem exec_pop : exec (.pop r) s = .next (popInto r s) := by cases r <;> rfl
theorem exec_peek : exec (.peek r) s = .next (peekInto r s) := by cases r <;> rfl

theorem popInto_done :
    RegDone r (memGet s.ram (0x7F00 + (s.sp.toNat + 255) % 256)) (s.sp - 1) s (popInto r s) := by
  rw [← popValue_eq_memGet]
  exact setSp_setReg_done ..

theorem peekInto_done : RegDone r (memGet s.ram (0x7F00 + s.sp.toNat)) s.sp s (peekInto r s) := by
  rw [← peekValue_eq_memGet]
  exact setReg_done ..

end

/-! ## The statement of 42_stack_read.md -/

/-- Settles O38: POP writes SP and the register, PEEK the register alone, each with the byte of its slot. -/
theorem popAndPeekLoadRegister : Obligations.PopAndPeekLoadRegister := by
  unfold Obligations.PopAndPeekLoadRegister
  exact fun r => ⟨runsFrom_pop r, runsFrom_peek r, fun s =>
    ⟨⟨_, exec_pop r s, popInto_done r s⟩, ⟨_, exec_peek r s, peekInto_done r s⟩⟩⟩

end Sys2Proof.Machine
end

section
/-! # The indirect store family: STI A and STI B

The address {Y, X} as a number; then each instruction, said once by an equation; then the statement of
43_store_indirect.md. -/

namespace Sys2Proof.Machine

/-! ## The address -/

/-- The two halves of an address do not overlap, so joining them is a sum (30_encoding.md R311, R312). -/
theorem joinBytes_toNat (hi lo : Byte) : (joinBytes hi lo).toNat = hi.toNat * 256 + lo.toNat := by
  rw [joinBytes, BitVec.toNat_append, ← Nat.shiftLeft_add_eq_or_of_lt lo.isLt, Nat.shiftLeft_eq]

section
variable (s : State)

theorem indirectAddr_toNat : s.indirectAddr.toNat = s.y.toNat * 256 + s.x.toNat := joinBytes_toNat s.y s.x

/-! ## The instructions -/

@[simp] theorem exec_stiA : exec .stiA s = .next (memWrite s s.indirectAddr s.a) := rfl
@[simp] theorem exec_stiB : exec .stiB s = .next (memWrite s s.indirectAddr s.b) := rfl

end

/-! ## The statement of 43_store_indirect.md -/

/-- Settles O39: both opcodes have format I, and each instruction is one write through the address decoder, whose whole
effect is `memWrite_storeDone`. -/
theorem stiStoresIndirect : Obligations.StiStoresIndirect := by
  unfold Obligations.StiStoresIndirect
  exact ⟨runsFrom_I (op := 0x40) rfl, runsFrom_I (op := 0x41) rfl, fun s => ⟨indirectAddr_toNat s,
    ⟨_, exec_stiA s, memWrite_storeDone s s.indirectAddr s.a⟩,
    ⟨_, exec_stiB s, memWrite_storeDone s s.indirectAddr s.b⟩⟩⟩

end Sys2Proof.Machine
end

section
/-! # The move family: MOV of the register pairs

The instruction from its byte and as one register write, then the statement of 44_move.md. The two lemmas hold for all
sixteen pairs of fields: where the fields are equal the code is unmapped, and a no-operation is a register copied to
itself. -/

namespace Sys2Proof.Machine

/-! ## The instruction -/

section
variable (d q : Reg)

/-- The source is the field of bits 3:2, the destination the field of bits 1:0 (44_move.md R800). -/
theorem runsFrom_mov : RunsFrom [BitVec.ofNat 8 (0x60 + 4 * q.index + d.index)] (.mov d q) := by
  cases d <;> cases q <;> exact runsFrom_I rfl

theorem exec_mov (s : State) : exec (.mov d q) s = .next (moveReg d q s) := by
  cases d <;> cases q <;> rfl

theorem moveReg_done (s : State) : RegDone d (s.reg q) s.sp s (moveReg d q s) := setReg_done d (s.reg q) s

end

/-! ## The statement of 44_move.md -/

/-- Settles O36: the byte is a format I opcode, and the instruction is one register write of the source's value, which
changes nothing else. -/
theorem movCopiesRegister : Obligations.MovCopiesRegister := by
  unfold Obligations.MovCopiesRegister
  exact fun d q _ => ⟨runsFrom_mov d q, fun s => ⟨_, exec_mov d q s, moveReg_done d q s⟩⟩

end Sys2Proof.Machine
end

section
/-! # The control transfer family: JMP, the calls, RET and the branches

A format W instruction run from its three bytes; then a jump, a call and a return, each as a whole-state effect; then each
instruction, said once by an equation in which bit 0 of F is the condition; then the statements of 45_control_transfer.md. -/

namespace Sys2Proof.Machine

/-! ## From the bytes -/

/-- A format W instruction runs from its three bytes, the low byte of its operand first (30_encoding.md R311, R312). -/
theorem runsFrom_W {op : Byte} (hf : formatOf op = .W) (lo hi : Byte) : RunsFrom [op, lo, hi] (instrOf op lo hi) := by
  intro s hrun hholds
  obtain ⟨hop, hrest⟩ := (holds_cons ..).1 hholds
  obtain ⟨hlo, hrest⟩ := (holds_cons ..).1 hrest
  have hhi : s.view (s.pc + 1 + 1) = some hi := ((holds_cons ..).1 hrest).1
  rw [BitVec.add_assoc] at hhi
  rw [step_running hrun, fetchInstr_W hop hlo hhi hf]
  rfl

/-! ## The operations -/

section
variable (addr : Addr) (s : State)

/-- SP and PC written, and the whole rest of the state kept. -/
theorem setSp_setPc_done (sp : Byte) : JumpDone addr sp s ((s.setSp sp).setPc addr) where
  regs r := by rw [setPc_reg, setSp_reg]
  f := by rw [setPc_f, setSp_f]
  pc := setPc_pc ..
  sp := by rw [setPc_sp, setSp_sp]
  ram i := by rw [setPc_ram, setSp_ram]
  rest := by constructor <;> simp

theorem setPc_done : JumpDone addr s.sp s (s.setPc addr) := setSp_setPc_done addr s s.sp

theorem stackAddr_ne_succ (sp : Byte) : stackAddr sp ≠ stackAddr (sp + 1) := fun h => by
  have hsp : sp = sp + 1 := stackAddr_inj h
  bv_omega

/-- `call_ram_get` with the low byte's slot asked for first: the two slots differ, so the order is no choice. -/
theorem call_ram_get_low_first (i : Nat) :
    memGet (call s addr).ram i =
      if i = stackAddr s.sp then lowByte s.pc
      else if i = stackAddr (s.sp + 1) then highByte s.pc else memGet s.ram i := by
  rw [call_ram_get]
  by_cases hlow : i = stackAddr s.sp
  · rw [hlow, if_neg (stackAddr_ne_succ s.sp).symm, if_pos rfl, if_pos rfl]
  · simp only [if_neg hlow, eq_comm]

/-- A call stores the two bytes of the return address, moves SP by 2 and goes to its target (R901, R911). -/
theorem call_done : CallDone addr s (call s addr) where
  regs := call_reg s addr
  f := call_f s addr
  pc := call_pc s addr
  sp := by rw [call_sp, BitVec.add_assoc]; rfl
  ram := call_ram_get_low_first addr s
  rest := by constructor <;> simp

/-- A return reads the two slots below SP, in the ring of 256 slots, the high byte from the nearer (R912). -/
theorem returnTarget_eq_memGet : returnTarget s =
    memGet s.ram (0x7F00 + (s.sp - 1).toNat) ++ memGet s.ram (0x7F00 + (s.sp - 2).toNat) := by
  have hsp : (popState s).sp - 1 = s.sp - 2 := by rw [popState_sp]; bv_omega
  rw [returnTarget, popValue, popValue, hsp, popState_ram]
  rfl

theorem ret_eq_setSp_setPc : ret s = (s.setSp (s.sp - 2)).setPc (returnTarget s) := by
  have hsp : s.sp - 1 - 1 = s.sp - 2 := by bv_omega
  rw [← hsp]
  rfl

theorem ret_done :
    JumpDone (memGet s.ram (0x7F00 + (s.sp - 1).toNat) ++ memGet s.ram (0x7F00 + (s.sp - 2).toNat))
      (s.sp - 2) s (ret s) := by
  rw [← returnTarget_eq_memGet, ret_eq_setSp_setPc]
  exact setSp_setPc_done ..

/-! ## The instructions -/

@[simp] theorem exec_jmp : exec (.jmp addr) s = .next (s.setPc addr) := rfl
@[simp] theorem exec_jsr : exec (.jsr addr) s = .next (call s addr) := rfl
@[simp] theorem exec_ret : exec .ret s = .next (ret s) := rfl

theorem exec_jse : exec (.jse addr) s = .next (callIf (s.f.getLsbD 0) addr s) := rfl
theorem exec_jsn : exec (.jsn addr) s = .next (callIf (!s.f.getLsbD 0) addr s) := rfl
theorem exec_bne : exec (.bne addr) s = .next (jumpIf (!s.f.getLsbD 0) addr s) := rfl
theorem exec_beq : exec (.beq addr) s = .next (jumpIf (s.f.getLsbD 0) addr s) := rfl

end

/-! ## The statements of 45_control_transfer.md -/

/-- Settles O42: JMP is one `setPc`. -/
theorem jmpSetsPc : Obligations.JmpSetsPc := by
  unfold Obligations.JmpSetsPc
  exact fun lo hi => ⟨runsFrom_W (op := 0x70) rfl lo hi, fun addr s => ⟨_, exec_jmp addr s, setPc_done addr s⟩⟩

/-- Settles O43: JSR is one `call`. -/
theorem jsrCalls : Obligations.JsrCalls := by
  unfold Obligations.JsrCalls
  exact fun lo hi => ⟨runsFrom_W (op := 0x71) rfl lo hi, fun addr s => ⟨_, exec_jsr addr s, call_done addr s⟩⟩

/-- Settles O44: RET writes SP and PC alone, PC with the two bytes `returnTarget` joins. -/
theorem retReturns : Obligations.RetReturns := by
  unfold Obligations.RetReturns
  exact ⟨runsFrom_I (op := 0x72) rfl, fun s => ⟨_, exec_ret s, ret_done s⟩⟩

/-- Settles O45, by the two values of bit 0 of F: one of the two instructions calls, the other leaves the state as it is. -/
theorem conditionalCallsTestZero : Obligations.ConditionalCallsTestZero := by
  unfold Obligations.ConditionalCallsTestZero
  refine fun lo hi => ⟨runsFrom_W (op := 0x73) rfl lo hi, runsFrom_W (op := 0x74) rfl lo hi, fun addr s => ?_⟩
  rw [exec_jse, exec_jsn]
  cases s.f.getLsbD 0 with
  | true => exact ⟨⟨_, rfl, call_done addr s⟩, ⟨_, rfl, rfl⟩⟩
  | false => exact ⟨⟨_, rfl, rfl⟩, ⟨_, rfl, call_done addr s⟩⟩

/-- Settles O46, by the two values of bit 0 of F: one of the two instructions jumps, the other leaves the state as it is. -/
theorem branchesTestZero : Obligations.BranchesTestZero := by
  unfold Obligations.BranchesTestZero
  refine fun lo hi => ⟨runsFrom_W (op := 0x75) rfl lo hi, runsFrom_W (op := 0x76) rfl lo hi, fun addr s => ?_⟩
  rw [exec_bne, exec_beq]
  cases s.f.getLsbD 0 with
  | true => exact ⟨⟨_, rfl, rfl⟩, ⟨_, rfl, setPc_done addr s⟩⟩
  | false => exact ⟨⟨_, rfl, setPc_done addr s⟩, ⟨_, rfl, rfl⟩⟩

end Sys2Proof.Machine
end

section
/-! # The pairwise ALU family: ADD and SUB of the register pairs

The instruction from its byte; then each operation as that of ADI or SBI with a register's value for the immediate, so that
their effect is already known; then the statement of 46_alu_pairwise.md. -/

namespace Sys2Proof.Machine

/-! ## The instructions -/

section
variable (d o : Reg) (s : State)

/-- The destination is the field of bits 3:2, the operand the field of bits 1:0 (46_alu_pairwise.md R1000). -/
theorem runsFrom_add : RunsFrom [BitVec.ofNat 8 (0x80 + 4 * d.index + o.index)] (.add d o) := by
  cases d <;> cases o <;> exact runsFrom_I rfl

theorem runsFrom_sub : RunsFrom [BitVec.ofNat 8 (0x90 + 4 * d.index + o.index)] (.sub d o) := by
  cases d <;> cases o <;> exact runsFrom_I rfl

theorem exec_add : exec (.add d o) s = .next (addRegs d o s) := by cases d <;> cases o <;> rfl
theorem exec_sub : exec (.sub d o) s = .next (subRegs d o s) := by cases d <;> cases o <;> rfl

/-- The operand is read before the destination is written (41_alu_single.md R504), so it may be the destination. -/
theorem addRegs_eq_addByte : addRegs d o s = addByte d (s.reg o) s := rfl

theorem subRegs_eq_subByte : subRegs d o s = subByte d (s.reg o) s := rfl

theorem addRegs_done :
    AluDone d (BitVec.ofNat 8 (((s.reg d).toNat + (s.reg o).toNat) % 256)) s (addRegs d o s) := by
  rw [addRegs_eq_addByte]
  exact addByte_done ..

theorem subRegs_done :
    AluDone d (BitVec.ofNat 8 (((s.reg d).toNat + 256 - (s.reg o).toNat) % 256)) s (subRegs d o s) := by
  rw [subRegs_eq_subByte]
  exact subByte_done ..

end

/-! ## The statement of 46_alu_pairwise.md -/

/-- Settles O35: each byte is a format I opcode, and each instruction is one byte sum or difference of two registers with
the flag check, the destination's own pair included. -/
theorem addSubOfEveryPair : Obligations.AddSubOfEveryPair := by
  unfold Obligations.AddSubOfEveryPair
  exact fun d o => ⟨runsFrom_add d o, runsFrom_sub d o, fun s =>
    ⟨⟨_, exec_add d o s, addRegs_done d o s⟩, ⟨_, exec_sub d o s, subRegs_done d o s⟩⟩⟩

end Sys2Proof.Machine
end

section
/-! # The stack push family: PUSH of each register

The whole effect of one push, its slot and the new SP as numbers; then the instruction from its byte and its equation; then
the statement of 47_stack_push.md. -/

namespace Sys2Proof.Machine

/-! ## One push -/

section
variable (s : State) (v : Byte)

/-- SP counts up in a ring of 256: from 0xFF it goes to 0x00 (10_state.md R120, R123). -/
theorem push_sp_toNat : (push s v).sp.toNat = (s.sp.toNat + 1) % 256 := by
  rw [push_sp, BitVec.toNat_add]
  rfl

/-- The byte goes to the slot at SP, before SP moves (10_state.md R120). -/
theorem push_ram_slot (i : Nat) :
    memGet (push s v).ram i = if i = 0x7F00 + s.sp.toNat then v else memGet s.ram i := by
  have hslot : stackAddr s.sp = 0x7F00 + s.sp.toNat := rfl
  rw [push_ram_get, hslot]
  simp only [eq_comm]

theorem push_sameElse : SameElse s (push s v) := by constructor <;> simp

end

/-! ## The instruction -/

section
variable (r : Reg) (s : State)

theorem runsFrom_push : RunsFrom [BitVec.ofNat 8 (0xB0 + r.index)] (.push r) := by
  cases r <;> exact runsFrom_I rfl

theorem exec_push : exec (.push r) s = .next (push s (s.reg r)) := by cases r <;> rfl

end

/-! ## The statement of 47_stack_push.md -/

/-- Settles O37: each byte is a format I opcode, and each instruction is one `push` of its register. -/
theorem pushStoresRegister : Obligations.PushStoresRegister := by
  unfold Obligations.PushStoresRegister
  exact fun r => ⟨runsFrom_push r, fun s => ⟨push s (s.reg r), exec_push r s, push_reg s _, push_f s _, push_pc s _,
    push_sp_toNat s _, push_sameElse s _, push_ram_slot s _⟩⟩

end Sys2Proof.Machine
end

section
/-! # The round trip of the encoding

What the encoder makes of a decoded instruction, and the decoder of an encoded one; then a step on any bytes that decode;
then the statements that tie the opcode map to the bit layouts. -/

namespace Sys2Proof.Machine

/-! ## The encoder on a row of the opcode map -/

theorem wf_instrOf_without_operands (op : Byte) : (instrOf op 0 0).wf = true := by
  revert op
  decide +kernel

/-- A byte that no row of the map holds is in R314's list, so every instruction of the map is well-formed. -/
theorem wf_instrOf (op b1 b2 : Byte) : (instrOf op b1 b2).wf = true := by
  have hzero := wf_instrOf_without_operands op
  unfold instrOf at hzero ⊢
  split
  case h_107 =>
    split at hzero
    case h_107 => exact hzero
    all_goals contradiction
  all_goals rfl

/-- The operand bytes of an instruction of the map are the bytes it was made of, as many as its format takes
(30_encoding.md R310, R311). -/
theorem operandBytes_instrOf (op b1 b2 : Byte) :
    operandBytes (instrOf op b1 b2) = [b1, b2].take ((formatOf op).length - 1) := by
  rw [← format_instrOf op b1 b2]
  unfold instrOf
  split <;> simp [operandBytes, Instr.format, Format.length]

theorem encode_instrOf (op b1 b2 : Byte) :
    encode (instrOf op b1 b2) = op :: [b1, b2].take ((formatOf op).length - 1) := by
  rw [encode, opcodeOf_instrOf, operandBytes_instrOf]

theorem length_encode (i : Instr) : (encode i).length = i.length := by cases i <;> rfl

/-! ## The decoder -/

/-- All that the decoder reads: an opcode, and the operand bytes of its format. -/
theorem decode_ok_cases {bytes rest : List Byte} {i : Instr} (h : decode bytes = .ok (i, rest)) :
    (∃ op, formatOf op = .I ∧ bytes = op :: rest ∧ i = instrOf op 0 0) ∨
    (∃ op b1, formatOf op = .M ∧ bytes = op :: b1 :: rest ∧ i = instrOf op b1 0) ∨
    (∃ op b1 b2, formatOf op = .W ∧ bytes = op :: b1 :: b2 :: rest ∧ i = instrOf op b1 b2) := by
  match bytes with
  | [] => cases h
  | op :: tail =>
    cases hf : formatOf op with
    | I =>
      rw [decode_I hf] at h
      cases h
      exact .inl ⟨op, hf, rfl, rfl⟩
    | M =>
      match tail with
      | [] => simp [decode, hf] at h
      | b1 :: tail =>
        rw [decode_M hf] at h
        cases h
        exact .inr (.inl ⟨op, b1, hf, rfl, rfl⟩)
    | W =>
      match tail with
      | [] => simp [decode, hf] at h
      | [_] => simp [decode, hf] at h
      | b1 :: b2 :: tail =>
        rw [decode_W hf] at h
        cases h
        exact .inr (.inr ⟨op, b1, b2, hf, rfl, rfl⟩)

/-- A format W opcode reads an address back from its two bytes, the low byte first (30_encoding.md R311). -/
theorem decode_W_addr {op : Byte} {mk : Addr → Instr} (hf : formatOf op = .W)
    (hmk : ∀ lo hi, instrOf op lo hi = mk (joinBytes hi lo)) (addr : Addr) (rest : List Byte) :
    decode (op :: lowByte addr :: highByte addr :: rest) = .ok (mk addr, rest) := by
  rw [decode_W hf, hmk, joinBytes_high_low]

/-- The round trip from the instruction, by its format. -/
theorem decode_encode {i : Instr} (hwf : i.wf = true) (rest : List Byte) : decode (encode i ++ rest) = .ok (i, rest) := by
  cases i with
  | unmapped op =>
    have hi : instrOf op 0 0 = .unmapped op := instrOf_of_isUnmapped hwf 0 0
    rw [← hi, encode_instrOf, formatOf_of_isUnmapped hwf]
    exact decode_I (formatOf_of_isUnmapped hwf) rest
  | adiA imm | sbiA imm | adiB imm | sbiB imm | adiX imm | sbiX imm | adiY imm | sbiY imm => exact decode_M rfl imm rest
  | jmp addr | jsr addr | jse addr | jsn addr | bne addr | beq addr | stA addr | stB addr | stX addr | stY addr =>
    exact decode_W_addr rfl (fun _ _ => rfl) addr rest
  | _ => exact decode_I rfl rest

/-- The round trip from the bytes. -/
theorem encode_of_decode {bytes rest : List Byte} {i : Instr} (h : decode bytes = .ok (i, rest)) :
    encode i ++ rest = bytes := by
  rcases decode_ok_cases h with ⟨op, hf, rfl, rfl⟩ | ⟨op, b1, hf, rfl, rfl⟩ | ⟨op, b1, b2, hf, rfl, rfl⟩
  all_goals rw [encode_instrOf, hf]; rfl

theorem wf_of_decode {bytes rest : List Byte} {i : Instr} (h : decode bytes = .ok (i, rest)) : i.wf = true := by
  rcases decode_ok_cases h with ⟨op, _, _, rfl⟩ | ⟨op, b1, _, _, rfl⟩ | ⟨op, b1, b2, _, _, rfl⟩
  all_goals exact wf_instrOf ..

/-! ## A step on the bytes of an instruction -/

theorem runsFrom_of_decode {bytes : List Byte} {i : Instr} (h : decode bytes = .ok (i, [])) : RunsFrom bytes i := by
  rcases decode_ok_cases h with ⟨op, hf, rfl, rfl⟩ | ⟨op, b1, hf, rfl, rfl⟩ | ⟨op, b1, b2, hf, rfl, rfl⟩
  · exact runsFrom_I hf
  · exact runsFrom_M hf b1
  · exact runsFrom_W hf b1 b2

/-- Wherever a well-formed instruction's own bytes stand at PC, the next step runs it. -/
theorem runsFrom_encode {i : Instr} (hwf : i.wf = true) : RunsFrom (encode i) i :=
  runsFrom_of_decode (by simpa using decode_encode hwf [])

/-! ## The statements on the encoding -/

/-- Settles O4: the opcode byte gives back the row of the instruction, and its operand bytes the operand. -/
theorem decodeOfEncode : Obligations.DecodeOfEncode := by
  unfold Obligations.DecodeOfEncode
  exact fun i rest hwf => decode_encode hwf rest

/-- Settles O5: what the decoder reads is a row of the opcode map, and the encoder writes a row's bytes. -/
theorem encodeOfDecode : Obligations.EncodeOfDecode := by
  unfold Obligations.EncodeOfDecode
  exact fun bytes i rest h => ⟨wf_of_decode h, encode_of_decode h⟩

/-- Settles O6, by computation on the nine words. -/
theorem decodeSampleWords : Obligations.DecodeSampleWords := by
  unfold Obligations.DecodeSampleWords
  exact ⟨rfl, rfl, rfl, rfl, rfl, rfl, rfl, rfl, rfl⟩

/-- Settles O8, by the format of the bytes that decode. -/
theorem stepRunsDecodedInstruction : Obligations.StepRunsDecodedInstruction := by
  unfold Obligations.StepRunsDecodedInstruction
  exact fun bytes i h => runsFrom_of_decode h

end Sys2Proof.Machine
end

section
/-! # The whole machine: who writes the registers, SP, RAM, the page registers, ROM and the events

The terms of the statements on the families of instructions; then the general registers and SP; then what one instruction
does on the memory side, said once as four kinds of change; then the events of a fetch; then the statements. -/

namespace Sys2Proof.Machine

/-! ## The terms of the statements, family by family -/

section
variable {i : Instr} {addr : Addr} {k : Nat} {v : Byte} (r d q : Reg) (s : State)

@[simp] theorem stackMove_hlt : s.stackMove .hlt = 0 := rfl
@[simp] theorem stackMove_sez : s.stackMove (.sez r) = 0 := by cases r <;> rfl
@[simp] theorem stackMove_pop : s.stackMove (.pop r) = -1 := by cases r <;> rfl
@[simp] theorem stackMove_peek : s.stackMove (.peek r) = 0 := by cases r <;> rfl
@[simp] theorem stackMove_push : s.stackMove (.push r) = 1 := by cases r <;> rfl
@[simp] theorem stackMove_mov : s.stackMove (.mov d q) = 0 := by cases d <;> cases q <;> rfl
@[simp] theorem stackMove_st (addr : Addr) : s.stackMove (.st r addr) = 0 := by cases r <;> rfl

theorem stackMove_flagClear (h : (i, k) ∈ [(Instr.clc, 2), (.cln, 1), (.clz, 0), (.clv, 3)]) : s.stackMove i = 0 := by
  simp only [List.mem_cons, Prod.mk.injEq, List.not_mem_nil, or_false] at h
  rcases h with ⟨rfl, _⟩ | ⟨rfl, _⟩ | ⟨rfl, _⟩ | ⟨rfl, _⟩ <;> rfl

theorem stackMove_jump (h : i ∈ [Instr.jmp addr, .bne addr, .beq addr]) : s.stackMove i = 0 := by
  simp only [List.mem_cons, List.not_mem_nil, or_false] at h
  rcases h with rfl | rfl | rfl <;> rfl

/-- The two indirect stores address {Y, X} and leave the stack alone. -/
theorem sti_terms (h : (i, v) ∈ [(Instr.stiA, s.a), (.stiB, s.b)]) :
    s.storeAddr i = some s.indirectAddr ∧ s.stackMove i = 0 := by
  simp only [List.mem_cons, Prod.mk.injEq, List.not_mem_nil, or_false] at h
  rcases h with ⟨rfl, _⟩ | ⟨rfl, _⟩ <;> exact ⟨rfl, rfl⟩

@[simp] theorem storeAddr_st (addr : Addr) : s.storeAddr (.st r addr) = some addr := by cases r <;> rfl

@[simp] theorem writtenReg_pop : writtenReg (opcodeOf (.pop r)).toNat = some r := by cases r <;> rfl
@[simp] theorem writtenReg_peek : writtenReg (opcodeOf (.peek r)).toNat = some r := by cases r <;> rfl

/-- The twelve codes with unequal fields: the other four are unmapped, and write nothing. -/
theorem writtenReg_mov (h : d ≠ q) : writtenReg (opcodeOf (.mov d q)).toNat = some d := by
  cases d <;> cases q
  case A.A | B.B | X.X | Y.Y => exact absurd rfl h
  all_goals rfl

theorem writtenReg_flagCheckOp {op : Nat} (h : isFlagCheckOp op = true) : writtenReg op = some (regAt (op / 4 % 4)) := by
  simp [writtenReg, h]

end

/-! ## The general registers and SP -/

section
variable (r d q : Reg) (v : Byte) (s : State)

@[simp] theorem aluResult_sp : (aluResult r v s).sp = s.sp := by simp [aluResult, flagCheck]
@[simp] theorem popInto_sp : (popInto r s).sp = s.sp - 1 := by simp [popInto]
@[simp] theorem peekInto_sp : (peekInto r s).sp = s.sp := by simp [peekInto]
@[simp] theorem moveReg_sp : (moveReg d q s).sp = s.sp := by simp [moveReg]

end

section
variable {i : Instr} {s t : State}

/-- A register that an instruction does not name keeps its value (10_state.md R104). -/
theorem exec_reg_of_not_written (h : exec i s = .next t) {q : Reg} (hq : writtenReg (opcodeOf i).toNat ≠ some q) :
    t.reg q = s.reg q := by
  cases exec_shape h with
  | alu _ r v _ _ _ _ hcheck hreg =>
    rw [writtenReg_flagCheckOp hcheck, hreg] at hq
    exact (aluResult_done r v s).others q fun e => hq (congrArg some e.symm)
  | pop r =>
    rw [writtenReg_pop] at hq
    exact (popInto_done r s).others q fun e => hq (congrArg some e.symm)
  | peek r =>
    rw [writtenReg_peek] at hq
    exact (peekInto_done r s).others q fun e => hq (congrArg some e.symm)
  | mov d src _ hne =>
    rw [writtenReg_mov d src hne] at hq
    exact (moveReg_done d src s).others q fun e => hq (congrArg some e.symm)
  | _ => simp

/-- SP moves by the instruction's own amount, in the ring of 256 (10_state.md R113). -/
theorem exec_sp (h : exec i s = .next t) : t.sp = s.sp + s.stackMove i := by
  cases exec_shape h with
  | same _ _ _ hmove => simp [hmove]
  | clear _ k _ hmem => simp [stackMove_flagClear s hmem]
  | alu _ r v _ _ hmove => simp [hmove]
  | pop r => simp [BitVec.sub_eq_add_neg]
  | sti _ v _ hmem => simp [(sti_terms s hmem).2]
  | jump _ addr _ hi => simp [stackMove_jump s hi]
  | call _ addr _ _ _ hmove => rw [hmove, call_sp, BitVec.add_assoc]; rfl
  | ret => rw [ret_sp, stackMove_ret]; bv_omega
  | _ => simp

end

/-! ## The memory side -/

/-- RAM, ROM, the page-select registers and the events: all that a write through the address decoder or to the stack can
change. -/
structure SameMemory (s t : State) : Prop where
  ram : t.ram = s.ram
  rom : t.rom = s.rom
  mpL : t.mpL = s.mpL
  mpH : t.mpH = s.mpH
  trace : t.trace = s.trace

/-- The four kinds of change that one instruction makes on the memory side, each with the term of the statements that says
which instruction it is (10_state.md R120, 20_memory.md R211, 45_control_transfer.md R901). -/
inductive MemoryChange (i : Instr) (s t : State) : Prop where
  | none (h : SameMemory s t)
  | store (addr : Addr) (v : Byte) (hi : s.storeAddr i = some addr) (ht : t = memWrite s addr v)
  | push (v : Byte) (hi : s.stackMove i = 1) (ht : t = push s v)
  | call (addr : Addr) (hi : s.stackMove i = 2) (ht : t = call s addr)

section
variable {i : Instr} {s t : State}

theorem exec_memoryChange (h : exec i s = .next t) : MemoryChange i s t := by
  cases exec_shape h with
  | sti _ v _ hmem => exact .store s.indirectAddr v (sti_terms s hmem).1 rfl
  | st r addr => exact .store addr (s.reg r) (storeAddr_st ..) rfl
  | push r => exact .push (s.reg r) (stackMove_push ..) rfl
  | call _ addr _ _ _ hmove => exact .call addr hmove rfl
  | _ => exact .none (by constructor <;> simp [aluResult, flagCheck, popInto, peekInto, moveReg])

theorem exec_rom (h : exec i s = .next t) : t.rom = s.rom := by
  cases exec_memoryChange h with
  | none h => exact h.rom
  | store addr v _ ht => rw [ht, memWrite_rom]
  | push v _ ht => rw [ht, push_rom]
  | call addr _ ht => rw [ht, call_rom]

theorem exec_mpL_of_not_stored (h : exec i s = .next t) (hi : s.storeAddr i ≠ some 0xFFFA) : t.mpL = s.mpL := by
  cases exec_memoryChange h with
  | none h => exact h.mpL
  | store addr v haddr ht => rw [ht, memWrite_mpL, if_neg fun e => hi (haddr.trans (congrArg some e))]
  | push v _ ht => rw [ht, push_mpL]
  | call addr _ ht => rw [ht, call_mpL]

theorem exec_mpH_of_not_stored (h : exec i s = .next t) (hi : s.storeAddr i ≠ some 0xFFFB) : t.mpH = s.mpH := by
  cases exec_memoryChange h with
  | none h => exact h.mpH
  | store addr v haddr ht => rw [ht, memWrite_mpH, if_neg fun e => hi (haddr.trans (congrArg some e))]
  | push v _ ht => rw [ht, push_mpH]
  | call addr _ ht => rw [ht, call_mpH]

theorem exec_memoryWf (h : exec i s = .next t) (hs : s.memoryWf = true) : t.memoryWf = true := by
  cases exec_memoryChange h with
  | none h => rwa [State.memoryWf, h.ram, h.rom]
  | store addr v _ ht => rw [ht]; exact memWrite_memoryWf hs addr v
  | push v _ ht => rw [ht]; exact push_memoryWf hs v
  | call addr _ ht => rw [ht]; exact call_memoryWf hs addr

/-- Each RAM byte that an instruction changes is one it stores to: the addressed cell, the slot of a push, or one of the
two slots of a call. -/
theorem exec_ram_changed (h : exec i s = .next t) {k : Nat} (hk : memGet t.ram k ≠ memGet s.ram k) :
    k < 0x8000 ∧
    ((∃ addr, s.storeAddr i = some addr ∧ k = addr.toNat) ∨
     (s.stackMove i = 1 ∧ k = stackAddr s.sp) ∨
     (s.stackMove i = 2 ∧ (k = stackAddr s.sp ∨ k = stackAddr (s.sp + 1)))) := by
  have hslot : ∀ sp, stackAddr sp < 0x8000 := fun sp => Nat.lt_succ_of_le (stackAddr_bounds sp).2
  cases exec_memoryChange h with
  | none h => exact absurd (congrArg (memGet · k) h.ram) hk
  | store addr v haddr ht =>
    rw [ht, memWrite_ram_get] at hk
    obtain ⟨hlt, rfl⟩ : addr.toNat < 0x8000 ∧ addr.toNat = k := Decidable.byContradiction fun hne => hk (if_neg hne)
    exact ⟨hlt, .inl ⟨addr, haddr, rfl⟩⟩
  | push v hmove ht =>
    rw [ht, push_ram_get] at hk
    obtain rfl : stackAddr s.sp = k := Decidable.byContradiction fun hne => hk (if_neg hne)
    exact ⟨hslot _, .inr (.inl ⟨hmove, rfl⟩)⟩
  | call addr hmove ht =>
    rw [ht, call_ram_get] at hk
    by_cases hhigh : stackAddr (s.sp + 1) = k
    · exact ⟨hhigh ▸ hslot _, .inr (.inr ⟨hmove, .inr hhigh.symm⟩)⟩
    · rw [if_neg hhigh] at hk
      obtain rfl : stackAddr s.sp = k := Decidable.byContradiction fun hlow => hk (if_neg hlow)
      exact ⟨hslot _, .inr (.inr ⟨hmove, .inl rfl⟩)⟩

end

/-! ## The events -/

/-- The event of a write: none at RAM and the page registers, a device write at a port, a report at a ROM address
(20_memory.md R206, R207). -/
theorem memWrite_trace_cases (s : State) (addr : Addr) (v : Byte) :
    (memWrite s addr v).trace = s.trace ∨
    (targetOf addr = .device ∧ (memWrite s addr v).trace = s.trace ++ [.devWrite addr v]) ∨
    (targetOf addr = .rom ∧ (memWrite s addr v).trace = s.trace ++ [.readOnlyViolation addr v]) := by
  cases ht : targetOf addr with
  | device => exact .inr (.inl ⟨rfl, by rw [memWrite_to_device s ht, emit_trace]⟩)
  | rom => exact .inr (.inr ⟨rfl, by rw [memWrite_to_rom s ht, emit_trace]⟩)
  | _ => exact .inl (by rw [memWrite, ht]; rfl)

/-- An instruction adds at most one event, by a store at a port or at a ROM address (60_exceptions.md R1403). -/
theorem exec_trace {i : Instr} {s t : State} (h : exec i s = .next t) : ∃ data : List Event,
    t.trace = s.trace ++ data ∧ data.length ≤ 1 ∧
    ∀ e ∈ data, ∃ addr v, s.storeAddr i = some addr ∧
      ((targetOf addr = .device ∧ e = .devWrite addr v) ∨ (targetOf addr = .rom ∧ e = .readOnlyViolation addr v)) := by
  have hnone : t.trace = s.trace → t.trace = s.trace ++ [] := fun e => by rw [e, List.append_nil]
  cases exec_memoryChange h with
  | none h => exact ⟨[], hnone h.trace, Nat.zero_le 1, nofun⟩
  | push v _ ht => exact ⟨[], hnone (by rw [ht, push_trace]), Nat.zero_le 1, nofun⟩
  | call addr _ ht => exact ⟨[], hnone (by rw [ht, call_trace]), Nat.zero_le 1, nofun⟩
  | store addr v haddr ht =>
    subst ht
    rcases memWrite_trace_cases s addr v with hsame | ⟨hdev, htr⟩ | ⟨hrom, htr⟩
    · exact ⟨[], hnone hsame, Nat.zero_le 1, nofun⟩
    · refine ⟨[.devWrite addr v], htr, Nat.le_refl 1, fun e he => ⟨addr, v, haddr, .inl ⟨hdev, ?_⟩⟩⟩
      exact List.mem_singleton.1 he
    · refine ⟨[.readOnlyViolation addr v], htr, Nat.le_refl 1, fun e he => ⟨addr, v, haddr, .inr ⟨hrom, ?_⟩⟩⟩
      exact List.mem_singleton.1 he

/-- The device ports among the `n` addresses from `addr`, in address order, wrapping at 0xFFFF. -/
def portsFrom (addr : Addr) (n : Nat) : List Addr :=
  ((List.range n).map fun k => addr + BitVec.ofNat 16 k).filter fun a => targetOf a == .device

theorem portsFrom_succ (addr : Addr) (n : Nat) :
    portsFrom addr (n + 1) = (if targetOf addr = .device then [addr] else []) ++ portsFrom (addr + 1) n := by
  have hshift : ∀ k, addr + BitVec.ofNat 16 (k + 1) = addr + 1 + BitVec.ofNat 16 k := fun k => by
    rw [BitVec.add_assoc, Nat.add_comm, BitVec.ofNat_add]
    rfl
  simp only [portsFrom, List.range_succ_eq_map, List.map_cons, List.map_map, List.filter_cons, Function.comp_def,
    Nat.succ_eq_add_one, hshift]
  by_cases hd : targetOf addr = .device <;> simp [hd]

/-- One byte fetched adds a device read if PC is a port, and else no event. -/
theorem fetchByte_trace (s : State) : ∃ reads : List Event, (fetchByte s).2.trace = s.trace ++ reads ∧
    reads.map readPort = (if targetOf s.pc = .device then [s.pc] else []).map some := by
  have htrace : (fetchByte s).2.trace = (memRead s s.pc).2.trace := by rw [fetchByte_eq, setPc_trace]
  rw [htrace, memRead_trace]
  by_cases hd : targetOf s.pc = .device
  · exact ⟨[.devRead s.pc (memRead s s.pc).1], by simp [hd], by simp [hd, readPort]⟩
  · exact ⟨[], by simp [hd], by simp [hd]⟩

/-- The fetches of `n` bytes add a device read for each port among their addresses, in address order. -/
theorem fetchBytes_trace (n : Nat) (s : State) : ∃ reads : List Event, (fetchBytes n s).2.trace = s.trace ++ reads ∧
    reads.map readPort = (portsFrom s.pc n).map some := by
  induction n generalizing s with
  | zero => exact ⟨[], (List.append_nil _).symm, rfl⟩
  | succ n ih =>
    obtain ⟨first, hfirst, hport⟩ := fetchByte_trace s
    obtain ⟨others, hothers, hports⟩ := ih (fetchByte s).2
    refine ⟨first ++ others, ?_, ?_⟩
    · rw [fetchBytes, hothers, hfirst, List.append_assoc]
    · rw [List.map_append, hport, hports, fetchByte_pc, portsFrom_succ, List.map_append]

theorem fetchInstr_trace (s : State) : ∃ reads : List Event, (fetchInstr s).2.trace = s.trace ++ reads ∧
    reads.map readPort = (portsFrom s.pc (fetchInstr s).1.length).map some := by
  rw [(fetchInstr_eq_fetchBytes s).2, setIr_trace, length_fetchInstr]
  exact fetchBytes_trace _ s

/-! ## One step -/

section
variable {s t : State}

theorem step_rom (h : step s = .next t) : t.rom = s.rom := by
  rcases step_cases h with ⟨_, rfl⟩ | ⟨_, hexec⟩
  · rfl
  · rw [exec_rom hexec, fetchInstr_rom]

theorem step_memoryWf (h : step s = .next t) (hs : s.memoryWf = true) : t.memoryWf = true := by
  rcases step_cases h with ⟨_, rfl⟩ | ⟨_, hexec⟩
  · exact hs
  · refine exec_memoryWf hexec ?_
    rwa [State.memoryWf, fetchInstr_ram, fetchInstr_rom]

theorem inv_iff (s : State) : s.inv = true ↔ s.memoryWf = true ∧ s.flagsClean = true := by
  rw [State.inv, Bool.and_eq_true]

end

/-! ## The statements -/

/-- Settles O55: the step keeps each half of the invariant by itself. -/
theorem stepKeepsInvariant : Obligations.StepKeepsInvariant := by
  unfold Obligations.StepKeepsInvariant
  intro s t hs h
  obtain ⟨hmem, hflags⟩ := (inv_iff s).1 hs
  exact (inv_iff t).2 ⟨step_memoryWf h hmem, step_flagsClean h hflags⟩

/-- Settles O53: the reads are those of the fetch, and the instruction's own event comes after them. -/
theorem eventsOfCycle : Obligations.EventsOfCycle := by
  unfold Obligations.EventsOfCycle
  intro s t hrun h
  rw [step_running hrun] at h
  obtain ⟨reads, hreads, hports⟩ := fetchInstr_trace s
  obtain ⟨data, hdata, hone, hevent⟩ := exec_trace h
  have htrace : t.trace = s.trace ++ (reads ++ data) := by rw [hdata, hreads, List.append_assoc]
  exact ⟨reads, data, htrace, by rw [eventsSince, htrace, List.drop_left], hports, hone, hevent⟩

/-- Settles O48: every register the opcode does not name is kept. -/
theorem writersOfRegisters : Obligations.WritersOfRegisters := by
  unfold Obligations.WritersOfRegisters
  intro i s t q _ h hchanged
  exact Decidable.byContradiction fun hq => hchanged (exec_reg_of_not_written h hq)

/-- Settles O49, instruction by instruction in `exec_sp`. -/
theorem writersOfStackPointer : Obligations.WritersOfStackPointer := by
  unfold Obligations.WritersOfStackPointer
  exact fun i s t h => exec_sp h

/-- Settles O50, by the kind of change in `exec_ram_changed`. -/
theorem writersOfRam : Obligations.WritersOfRam := by
  unfold Obligations.WritersOfRam
  exact fun i s t k h hk => exec_ram_changed h hk

/-- Settles O51: HALTED changes nothing, the fetch writes no page register, and the instruction writes one by a store
alone. -/
theorem writersOfPageRegisters : Obligations.WritersOfPageRegisters := by
  unfold Obligations.WritersOfPageRegisters
  intro s t h
  rcases step_cases h with ⟨_, rfl⟩ | ⟨_, hexec⟩
  · exact ⟨absurd rfl, absurd rfl⟩
  · rw [← fetchInstr_mpL s, ← fetchInstr_mpH s]
    exact ⟨fun hne => Decidable.byContradiction fun hi => hne (exec_mpL_of_not_stored hexec hi),
      fun hne => Decidable.byContradiction fun hi => hne (exec_mpH_of_not_stored hexec hi)⟩

/-- Settles O52: no step writes ROM, and what every step keeps every number of cycles keeps. -/
theorem romNeverChanges : Obligations.RomNeverChanges := by
  unfold Obligations.RomNeverChanges
  intro s t n h
  exact cycles_induction (P := fun u => u.rom = s.rom) (fun _ _ hstep hu => (step_rom hstep).trans hu) h rfl

end Sys2Proof.Machine
end

section
/-! # The absolute store and set flag families: ST and SEZ of each register

Each instruction from its bytes and by one equation; then the statements of 48_store_absolute.md and 49_set_flag.md. -/

namespace Sys2Proof.Machine

/-! ## The instructions -/

section
variable (r : Reg) (addr : Addr) (s : State)

/-- The operand stands low byte first (30_encoding.md R311, 48_store_absolute.md R1210 to R1213). -/
theorem runsFrom_st (lo hi : Byte) : RunsFrom [BitVec.ofNat 8 (0xC0 + r.index), lo, hi] (.st r (hi ++ lo)) := by
  cases r <;> exact runsFrom_W rfl lo hi

theorem runsFrom_sez : RunsFrom [BitVec.ofNat 8 (0xD0 + 5 * r.index)] (.sez r) := by
  cases r <;> exact runsFrom_I rfl

theorem exec_st : exec (.st r addr) s = .next (memWrite s addr (s.reg r)) := by cases r <;> rfl

theorem exec_sez : exec (.sez r) s = .next (s.setF (setBit s.f 0)) := by cases r <;> rfl

theorem setBit_zero_bit (f : Byte) (k : Nat) : (setBit f 0).getLsbD k = if k = 0 then true else f.getLsbD k := by
  rw [setBit_bit _ _ _ (by decide)]
  by_cases hk : k = 0 <;> simp [hk]

end

/-! ## The statements of 48_store_absolute.md and 49_set_flag.md -/

/-- Settles O40: each opcode has format W, and each instruction is one write through the address decoder. -/
theorem stStoresAbsolute : Obligations.StStoresAbsolute := by
  unfold Obligations.StStoresAbsolute
  exact fun r lo hi => ⟨runsFrom_st r lo hi, fun addr s => ⟨_, exec_st r addr s, memWrite_storeDone s addr (s.reg r)⟩⟩

/-- Settles O41: the fetch reads RAM through the address decoder, and the store has put the register's byte there. -/
theorem storeIsFetchedNext : Obligations.StoreIsFetchedNext := by
  unfold Obligations.StoreIsFetchedNext
  intro r addr s t haddr h
  have hram : addr.toNat < 0x8000 := by omega
  rw [exec_st] at h
  cases h
  rw [fetchByte_eq, setPc_pc, memRead_from_ram _ hram, setPc_ram, memWrite_ram_get]
  exact if_pos ⟨hram, rfl⟩

/-- Settles O30: each of the four is one `setBit` of bit 0, which leaves every other bit. -/
theorem sezSetsZero : Obligations.SezSetsZero := by
  unfold Obligations.SezSetsZero
  exact fun r => ⟨runsFrom_sez r, fun s => ⟨setBit s.f 0, exec_sez r s, setBit_zero_bit s.f⟩⟩

end Sys2Proof.Machine
end

section
/-! # The stack discipline: pushes undone by pops, the ring of 256 slots, a call undone by RET

What a pop sees after pushes, and a return after a call; then the statements. -/

namespace Sys2Proof.Machine

section
variable (s : State) (v : Byte)

/-- A pop reads RAM and SP alone. -/
theorem popValue_congr {s t : State} (hsp : t.sp = s.sp)
    (hram : memGet t.ram (stackAddr (s.sp - 1)) = memGet s.ram (stackAddr (s.sp - 1))) :
    popValue t = popValue s := by
  rw [popValue, hsp, hram, popValue]

/-- A push writes the slot at SP, so it keeps the byte on top of the stack, one slot below. -/
theorem push_ram_top : memGet (push s v).ram (stackAddr (s.sp - 1)) = memGet s.ram (stackAddr (s.sp - 1)) := by
  rw [push_ram_get, if_neg]
  intro h
  have hsp : s.sp = s.sp - 1 := stackAddr_inj h
  bv_omega

@[simp] theorem popInto_ram (r : Reg) : (popInto r s).ram = s.ram := by simp [popInto]

/-- POP gives the register the byte on top of the stack. -/
theorem popInto_reg_self (r : Reg) : (popInto r s).reg r = popValue s := setReg_reg_self ..

/-- Below a pushed byte that is popped again stands what stood there before. -/
theorem popValue_popInto_push (r : Reg) : popValue (popInto r (push s v)) = popValue s := by
  refine popValue_congr ?_ ?_
  · rw [popInto_sp, push_sp, BitVec.add_sub_cancel]
  · rw [popInto_ram, push_ram_top]

/-- Each push moves SP by one. -/
theorem repeat_push_sp (n : Nat) : (Nat.repeat (fun u => push u v) n s).sp = s.sp + BitVec.ofNat 8 n := by
  induction n with
  | zero => simp [Nat.repeat]
  | succ n ih => rw [Nat.repeat, push_sp, ih, BitVec.add_assoc, BitVec.ofNat_add]; rfl

/-- The address a return goes to depends on SP and the two slots below it. -/
theorem returnTarget_of_slots {sp : Byte} {a : Addr} (hsp : s.sp = sp + 1 + 1)
    (hlow : memGet s.ram (stackAddr sp) = lowByte a) (hhigh : memGet s.ram (stackAddr (sp + 1)) = highByte a) :
    returnTarget s = a := by
  rw [returnTarget, popValue, popValue, popState_ram, popState_sp, hsp, BitVec.add_sub_cancel, BitVec.add_sub_cancel, hlow,
    hhigh, joinBytes_high_low]

end

/-! ## The statements -/

/-- Settles O23: the first pop reads what the second push stored, and the second pop what the first push stored. -/
theorem pushesPopInReverse : Obligations.PushesPopInReverse := by
  unfold Obligations.PushesPopInReverse
  intro s u v w t p q p' q' hu hv hw ht
  rw [exec_push] at hu hv
  rw [exec_pop] at hw ht
  cases hu; cases hv; cases hw; cases ht
  refine ⟨?_, ?_, ?_⟩
  · rw [popInto_reg_self, popValue_push, push_reg]
  · rw [popInto_reg_self, popValue_popInto_push, popValue_push]
  · rw [popInto_sp, popInto_sp, push_sp, push_sp, BitVec.add_sub_cancel, BitVec.add_sub_cancel]

/-- Settles O24: SP after `n` pushes by induction on `n`; 257 is 1 modulo 2^8. -/
theorem pushesWrapRing : Obligations.PushesWrapRing := by
  unfold Obligations.PushesWrapRing
  refine fun v n s => ⟨repeat_push_sp s v n, ?_⟩
  rw [repeat_push_sp, push_sp]
  rfl

/-- Settles O25: the two slots hold the return address that the call stored, and SP is two above it. -/
theorem returnUndoesCall : Obligations.ReturnUndoesCall := by
  unfold Obligations.ReturnUndoesCall
  intro s u v t target hcall hsp hlow hhigh hret
  rw [exec_jsr] at hcall
  rw [exec_ret] at hret
  cases hcall
  cases hret
  rw [call_sp] at hsp
  rw [call_ram_get_low_first, if_pos rfl] at hlow
  rw [call_ram_get, if_pos rfl] at hhigh
  refine ⟨?_, ?_⟩
  · rw [ret_pc, returnTarget_of_slots v hsp hlow hhigh]
  · rw [ret_sp, hsp, BitVec.add_sub_cancel, BitVec.add_sub_cancel]

end Sys2Proof.Machine
end

section
/-! # Reset, the layout of memory, and the rotations

The reset state and its ROM window; canonical memories that read alike; the keys of ROM cells; the rotations bit by bit;
then the statements. -/

namespace Sys2Proof.Machine

/-! ## Reset and the Loader -/

/-- Both page registers are zero after reset, so the ROM window shows bank (0, 0) (70_reset_and_hazards.md R1501). -/
theorem memRead_boot_rom (ramImage romImage : List Host.Cell) {addr : Addr} (h : targetOf addr = .rom) :
    memRead (State.boot ramImage romImage) addr =
      (memGet (State.boot ramImage romImage).rom (romIndex 0 0 (addr.toNat - 0x8000)), State.boot ramImage romImage) :=
  memRead_from_present_bank (State.boot ramImage romImage) h (Nat.zero_le 254) (Nat.zero_le 254)

/-! ## Canonical memories -/

@[simp] theorem memGet_head (k : Nat) (v : Byte) (m : Memory) : memGet ((k, v) :: m) k = v := by simp [memGet_cons]

/-- A canonical memory that reads a listed byte at `k` cannot begin above `k`. -/
theorem le_of_memGet_ne_unlisted {lo size k : Nat} {m : Memory} (hm : memWfFrom lo size m = true)
    (hk : memGet m k ≠ unlisted) : lo ≤ k :=
  Nat.not_lt.1 fun hlt => hk (memGet_of_lt hm hlt)

/-- Reading alike settles the first cell of each list: neither begins below the other, and the bytes agree. Then the tails
read alike, since below its own first address each reads as unlisted. -/
theorem memory_eq_of_memGet_eq {size lo : Nat} {m m' : Memory} (hm : memWfFrom lo size m = true)
    (hm' : memWfFrom lo size m' = true) (h : ∀ i, memGet m i = memGet m' i) : m = m' := by
  induction m generalizing lo m' with
  | nil =>
    cases m' with
    | nil => rfl
    | cons c' m' =>
      obtain ⟨k', v'⟩ := c'
      obtain ⟨_, _, hv', _⟩ := (memWfFrom_cons ..).1 hm'
      exact absurd (by rw [← memGet_head k' v' m', ← h k', memGet_nil]) hv'
  | cons c m ih =>
    obtain ⟨k, v⟩ := c
    obtain ⟨hlo, hsize, hv, htail⟩ := (memWfFrom_cons ..).1 hm
    cases m' with
    | nil => exact absurd (by rw [← memGet_head k v m, h k, memGet_nil]) hv
    | cons c' m' =>
      obtain ⟨k', v'⟩ := c'
      obtain ⟨hlo', hsize', hv', htail'⟩ := (memWfFrom_cons ..).1 hm'
      have hle : k ≤ k' := by
        refine le_of_memGet_ne_unlisted ((memWfFrom_cons ..).2 ⟨Nat.le_refl k, hsize, hv, htail⟩) ?_
        rwa [h k', memGet_head]
      have hge : k' ≤ k := by
        refine le_of_memGet_ne_unlisted ((memWfFrom_cons ..).2 ⟨Nat.le_refl k', hsize', hv', htail'⟩) ?_
        rwa [← h k, memGet_head]
      obtain rfl : k = k' := Nat.le_antisymm hle hge
      obtain rfl : v = v' := by rw [← memGet_head k v m, h k, memGet_head]
      have htails : ∀ i, memGet m i = memGet m' i := by
        intro i
        by_cases hi : i < k + 1
        · rw [memGet_of_lt htail hi, memGet_of_lt htail' hi]
        · have hcell := h i
          rwa [memGet_cons, memGet_cons, if_neg (by omega), if_neg (by omega)] at hcell
      rw [ih htail htail' htails]

/-! ## The keys of ROM cells -/

theorem romIndex_eq (h l : Byte) (o : Nat) : romIndex h l o = (h.toNat * 255 + l.toNat) * 0x8000 + o := rfl

theorem romIndex_lt {h l : Byte} {o : Nat} (hbank : bankPresent h l = true) (ho : o < 0x8000) :
    romIndex h l o < Config.romSize := by
  obtain ⟨hh, hl⟩ := bankPresent_iff.1 hbank
  have hsize : Config.romSize = 255 * 255 * 0x8000 := rfl
  rw [romIndex_eq, hsize]
  omega

/-- Offset, low page and high page are the digits of the key, in bases 2^15 and 255. -/
theorem romIndex_inj {h l h' l' : Byte} {o o' : Nat} (hbank : bankPresent h l = true) (hbank' : bankPresent h' l' = true)
    (ho : o < 0x8000) (ho' : o' < 0x8000) (heq : romIndex h l o = romIndex h' l' o') : h = h' ∧ l = l' ∧ o = o' := by
  obtain ⟨_, hl⟩ := bankPresent_iff.1 hbank
  obtain ⟨_, hl'⟩ := bankPresent_iff.1 hbank'
  rw [romIndex_eq, romIndex_eq] at heq
  exact ⟨BitVec.eq_of_toNat_eq (by omega), BitVec.eq_of_toNat_eq (by omega), by omega⟩

/-! ## The rotations -/

section
variable (v : Byte)

theorem rol8_toNat : (rol8 v).toNat = (v.toNat * 2 ||| v.toNat / 128) % 256 := by
  have hv : v.toNat / 128 < 2 ^ 8 := by omega
  rw [rol8, BitVec.toNat_or, BitVec.toNat_shiftLeft, BitVec.toNat_ushiftRight, Nat.shiftLeft_eq, Nat.shiftRight_eq_div_pow,
    show 256 = 2 ^ 8 from rfl, Nat.or_mod_two_pow, Nat.mod_eq_of_lt hv]

theorem ror8_toNat : (ror8 v).toNat = (v.toNat / 2 ||| v.toNat * 128) % 256 := by
  have hv : v.toNat / 2 < 2 ^ 8 := by omega
  rw [ror8, BitVec.toNat_or, BitVec.toNat_shiftLeft, BitVec.toNat_ushiftRight, Nat.shiftLeft_eq, Nat.shiftRight_eq_div_pow,
    show 256 = 2 ^ 8 from rfl, Nat.or_mod_two_pow, Nat.mod_eq_of_lt hv]

theorem rol8_bit {k : Nat} (hk : k < 8) : (rol8 v).getLsbD k = v.getLsbD ((k + 7) % 8) := by
  rw [rol8_eq_rotateLeft, BitVec.getLsbD_rotateLeft]
  by_cases hzero : k = 0
  · subst hzero
    rfl
  · have hindex : (k + 7) % 8 = k - 1 := by omega
    simp [hzero, hk, hindex]

theorem ror8_bit {k : Nat} (hk : k < 8) : (ror8 v).getLsbD k = v.getLsbD ((k + 1) % 8) := by
  rw [ror8_eq_rotateRight, BitVec.getLsbD_rotateRight]
  by_cases hlast : k < 7
  · have hindex : (k + 1) % 8 = 1 + k := by omega
    simp [hlast, hindex]
  · obtain rfl : k = 7 := by omega
    rfl

theorem ror8_rol8 : ror8 (rol8 v) = v := by
  apply BitVec.eq_of_getLsbD_eq
  intro k hk
  rw [ror8_bit _ hk, rol8_bit _ (Nat.mod_lt _ (by decide))]
  congr 1
  omega

theorem rol8_ror8 : rol8 (ror8 v) = v := by
  apply BitVec.eq_of_getLsbD_eq
  intro k hk
  rw [rol8_bit _ hk, ror8_bit _ (Nat.mod_lt _ (by decide))]
  congr 1
  omega

end

/-! ## The statements -/

/-- Settles O1: the Loader writes RAM and ROM alone, so the first fetch is at RAM 0x0000 and the ROM window shows bank
(0, 0). -/
theorem resetEntry : Obligations.ResetEntry := by
  unfold Obligations.ResetEntry
  refine ⟨rfl, fun ramImage romImage => ?_⟩
  exact ⟨boot_run .., boot_pc .., rfl, rfl, fun addr h => memRead_boot_rom ramImage romImage h⟩

/-- Settles O3, by computation on the reset state. -/
theorem resetHoldsInvariant : Obligations.ResetHoldsInvariant := by
  unfold Obligations.ResetHoldsInvariant
  exact ⟨rfl, rfl, rfl, rfl⟩

/-- Settles O19: the next answer ready is the one taken. -/
theorem deviceAnswersInOrder : Obligations.DeviceAnswersInOrder := by
  unfold Obligations.DeviceAnswersInOrder
  intro s port v rest hdev hready
  rw [memRead_device s hdev, State.deviceRead, hready]
  rfl

/-- Settles O20: the key is a number whose digits are the bank and the offset. -/
theorem romCellsDistinct : Obligations.RomCellsDistinct := by
  unfold Obligations.RomCellsDistinct
  exact fun h l h' l' o o' hbank hbank' ho ho' => ⟨romIndex_lt hbank ho, romIndex_inj hbank hbank' ho ho'⟩

/-- Settles O21, by induction on the two lists in `memory_eq_of_memGet_eq`. -/
theorem canonicalMemoryUnique : Obligations.CanonicalMemoryUnique := by
  unfold Obligations.CanonicalMemoryUnique
  exact fun size m m' hm hm' h => memory_eq_of_memGet_eq hm hm' h

/-- Settles O31: bit `k` of a rotation is the neighbour's bit, in the ring of eight, so one rotation undoes the other. -/
theorem rotationFormulas : Obligations.RotationFormulas := by
  unfold Obligations.RotationFormulas
  exact fun v => ⟨rol8_toNat v, ror8_toNat v, rol8_bit v (by decide), ror8_bit v (by decide), ror8_rol8 v, rol8_ror8 v⟩

end Sys2Proof.Machine
end

section
/-! # The placed table word

What a plain cell shows after a byte is placed in it, and where three bytes are placed; then the statement on
`State.withFetchWord` (log 8). -/

namespace Sys2Proof.Machine

/-! ## Placing one byte -/

section
variable (s : State) {addr : Addr} (v : Byte)

/-- A plain cell is RAM, or ROM of a bank that exists. -/
theorem plainCell_cases {s : State} (h : s.plainCell addr = true) :
    targetOf addr = .ram ∨ (targetOf addr = .rom ∧ bankPresent s.mpH s.mpL = true) := by
  unfold State.plainCell at h
  split at h
  next ht => exact .inl ht
  next ht => exact .inr ⟨ht, h⟩
  next => cases h

theorem plainCell_of_ram (h : targetOf addr = .ram) : s.plainCell addr = true := by
  rw [State.plainCell, h]

theorem placeByte_to_ram (h : targetOf addr = .ram) :
    s.placeByte addr v = s.setRam (memSet s.ram addr.toNat v) := by
  rw [State.placeByte, h]

theorem placeByte_to_rom (h : targetOf addr = .rom) (hbank : bankPresent s.mpH s.mpL = true) :
    s.placeByte addr v = s.setRom (memSet s.rom (s.romKey addr) v) := by
  simp [State.placeByte, h, hbank]

/-- Placing a byte changes RAM and ROM alone. -/
theorem placeByte_effect (addr : Addr) : ∃ ram rom, s.placeByte addr v = { s with ram := ram, rom := rom } := by
  unfold State.placeByte
  split
  · exact ⟨_, s.rom, rfl⟩
  · split
    · exact ⟨s.ram, _, rfl⟩
    · exact ⟨s.ram, s.rom, rfl⟩
  · exact ⟨s.ram, s.rom, rfl⟩

@[simp] theorem placeByte_pc (addr : Addr) : (s.placeByte addr v).pc = s.pc := by
  obtain ⟨_, _, h⟩ := placeByte_effect s v addr
  rw [h]

@[simp] theorem placeByte_run (addr : Addr) : (s.placeByte addr v).run = s.run := by
  obtain ⟨_, _, h⟩ := placeByte_effect s v addr
  rw [h]

/-- Which cells are plain depends on the page registers, which placing a byte keeps. -/
@[simp] theorem placeByte_plainCell (addr addr' : Addr) : (s.placeByte addr v).plainCell addr' = s.plainCell addr' := by
  obtain ⟨_, _, h⟩ := placeByte_effect s v addr
  rw [h]
  rfl

theorem view_ram (h : targetOf addr = .ram) : s.view addr = some (memGet s.ram addr.toNat) := by
  rw [State.view, h]

theorem view_rom (h : targetOf addr = .rom) (hbank : bankPresent s.mpH s.mpL = true) :
    s.view addr = some (memGet s.rom (s.romKey addr)) := by
  simp [State.view, h, hbank]

theorem view_setRom (m : Memory) (h : targetOf addr = .rom) (hbank : bankPresent s.mpH s.mpL = true) :
    (s.setRom m).view addr = some (memGet m (s.romKey addr)) := view_rom (s.setRom m) h hbank

/-- The two ROM rows of the map lie above RAM, so in one bank distinct addresses have distinct keys. -/
theorem romKey_inj {addr' : Addr} (h : targetOf addr = .rom) (h' : targetOf addr' = .rom)
    (heq : s.romKey addr = s.romKey addr') : addr = addr' := by
  rw [targetOf_eq_rom] at h h'
  rw [State.romKey, State.romKey, romIndex_eq, romIndex_eq] at heq
  exact BitVec.eq_of_toNat_eq (by omega)

/-- The address shows the byte placed at it. -/
theorem view_placeByte_self (h : s.plainCell addr = true) : (s.placeByte addr v).view addr = some v := by
  rcases plainCell_cases h with hram | ⟨hrom, hbank⟩
  · rw [placeByte_to_ram s v hram, view_ram _ hram, setRam_ram, memGet_memSet_self]
  · rw [placeByte_to_rom s v hrom hbank, view_setRom _ _ hrom hbank, memGet_memSet_self]

/-- Every other address shows what it did. -/
theorem view_placeByte_ne (h : s.plainCell addr = true) {addr' : Addr} (hne : addr ≠ addr') :
    (s.placeByte addr v).view addr' = s.view addr' := by
  rcases plainCell_cases h with hram | ⟨hrom, hbank⟩
  · rw [placeByte_to_ram s v hram]
    cases ht : targetOf addr' with
    | ram =>
      have hcell : addr.toNat ≠ addr'.toNat := fun e => hne (BitVec.eq_of_toNat_eq e)
      rw [view_ram _ ht, view_ram _ ht, setRam_ram, memGet_memSet_ne _ hcell]
    | _ => simp only [State.view, ht] <;> rfl
  · rw [placeByte_to_rom s v hrom hbank]
    cases ht : targetOf addr' with
    | rom =>
      have hcell : s.romKey addr ≠ s.romKey addr' := fun e => hne (romKey_inj s hrom ht e)
      rw [view_setRom _ _ ht hbank, view_rom _ ht hbank, memGet_memSet_ne _ hcell]
    | _ => simp only [State.view, ht] <;> rfl

end

/-! ## Placing an instruction -/

section
variable (s : State)

/-- Three bytes placed in plain cells stand where they were placed: their addresses differ, also across 0xFFFF. -/
theorem placeBytes_holds {addr : Addr} (h0 : s.plainCell addr = true) (h1 : s.plainCell (addr + 1) = true)
    (h2 : s.plainCell (addr + 1 + 1) = true) (v0 v1 v2 : Byte) :
    (s.placeBytes addr [v0, v1, v2]).holds addr [v0, v1, v2] = true := by
  have h01 : addr + 1 ≠ addr := by bv_omega
  have h02 : addr + 1 + 1 ≠ addr := by bv_omega
  have h12 : addr + 1 + 1 ≠ addr + 1 := by bv_omega
  simp only [State.placeBytes, holds_cons]
  refine ⟨?_, ?_, ?_, rfl⟩
  · rw [view_placeByte_ne _ _ (by simpa using h2) h02, view_placeByte_ne _ _ (by simpa using h1) h01,
      view_placeByte_self _ _ h0]
  · rw [view_placeByte_ne _ _ (by simpa using h2) h12, view_placeByte_self _ _ (by simpa using h1)]
  · rw [view_placeByte_self _ _ (by simpa using h2)]

/-- Where an instruction is placed all three cells are plain: PC, if they are, and else 0x0000, which is RAM. -/
theorem placeAddr_plain :
    s.plainCell s.placeAddr = true ∧ s.plainCell (s.placeAddr + 1) = true ∧ s.plainCell (s.placeAddr + 1 + 1) = true := by
  unfold State.placeAddr
  split
  next h =>
    rw [Bool.and_eq_true, Bool.and_eq_true] at h
    obtain ⟨⟨h0, h1⟩, h2⟩ := h
    exact ⟨h0, h1, by rw [BitVec.add_assoc]; exact h2⟩
  next => exact ⟨plainCell_of_ram s rfl, plainCell_of_ram s rfl, plainCell_of_ram s rfl⟩

section
variable (nbits w : Nat)

theorem withFetchWord_run : (s.withFetchWord nbits w).run = .running := by
  simp [State.withFetchWord, State.placeInstr, tableBytes, State.placeBytes]

theorem withFetchWord_pc : (s.withFetchWord nbits w).pc = s.placeAddr := by
  simp [State.withFetchWord, State.placeInstr, tableBytes, State.placeBytes]

/-- The word's bytes stand at PC. -/
theorem withFetchWord_holds :
    (s.withFetchWord nbits w).holds (s.withFetchWord nbits w).pc (tableBytes nbits w) = true := by
  obtain ⟨h0, h1, h2⟩ := placeAddr_plain s
  rw [withFetchWord_pc]
  exact placeBytes_holds ((s.setPc s.placeAddr).setRun .running) h0 h1 h2 _ _ _

end

/-- The first bytes of a string that stands at an address stand there. -/
theorem holds_of_append {addr : Addr} {bytes rest : List Byte} (h : s.holds addr (bytes ++ rest) = true) :
    s.holds addr bytes = true := by
  induction bytes generalizing addr with
  | nil => rfl
  | cons v bytes ih =>
    obtain ⟨hview, htail⟩ := (holds_cons ..).1 h
    exact (holds_cons ..).2 ⟨hview, ih htail⟩

end

theorem decode_of_decodeTableWord {nbits w : Nat} {i : Instr} (h : decodeTableWord nbits w = some i) :
    ∃ rest, decode (tableBytes nbits w) = .ok (i, rest) := by
  unfold decodeTableWord at h
  split at h
  next j rest hdecode =>
    cases h
    exact ⟨rest, hdecode⟩
  next => cases h

/-! ## The statement -/

/-- Settles O56: the word begins with the encoding of the instruction it decodes to, which stands at PC, and a step runs an
instruction whose encoding stands there. -/
theorem fetchWordIsRunNext : Obligations.FetchWordIsRunNext := by
  unfold Obligations.FetchWordIsRunNext
  intro s nbits w i h
  obtain ⟨rest, hdecode⟩ := decode_of_decodeTableWord h
  have hholds := withFetchWord_holds s nbits w
  rw [← encode_of_decode hdecode] at hholds
  have hstep := runsFrom_encode (wf_of_decode hdecode) _ (withFetchWord_run s nbits w) (holds_of_append _ hholds)
  rwa [length_encode] at hstep

end Sys2Proof.Machine
end
